-- ==== Sys2Proof/Word.lean ====
section
/-! DEFINITION. The words of the machine (00_scope.md R6, R7, R10). -/

namespace Sys2Proof

/-- A byte of memory or of an instruction. -/
abbrev Byte := BitVec 8

/-- A 64-bit word: an element of a vector register, a double, an offset, a general register. -/
abbrev Word := BitVec 64

/-- A vector register as the source writes it, an array of 64-bit elements (00_scope.md R7); element 0 is
bits 63:0. Eight elements hold the widest register, `VLMAX = 512`; in a narrower machine the elements from
`VLMAX / 64` up are 0 (log 3). -/
abbrev VecReg := Vector Word 8

/-- A mask register of `MAX_KL` bits, as the number below `2 ^ MAX_KL` that they write: its width is a parameter
without an upper bound (00_scope.md R5, 10_state.md R23, log 3). Bit `i` is `Nat.testBit r i`. -/
abbrev MaskReg := Nat

/-- The 64-bit value of all ones, the legacy and VEX forms' "true" (00_scope.md R8). -/
def ones64 : Word := 0xFFFFFFFFFFFFFFFF#64

end Sys2Proof
end

