-- ==== Sys2Proof/Config.lean ====
section
/-! DEFINITION. The implementation parameters of 00_scope.md R5 and the free value of 43_vcmpsd_evex.md R184. -/

namespace Sys2Proof

/-- The operating mode of the opcode table's three columns (00_scope.md R5, 30_encoding.md R71). -/
inductive Mode where
  | mode16
  | mode32
  | mode64
deriving DecidableEq, Repr

/-- What non-zero reserved bits of `imm8` do (30_encoding.md R98). -/
inductive ImmReserved where
  | refuse
  | ignore
deriving DecidableEq, Repr

/-- Whether the EVEX memory form reads memory when the mask bit is 0 (43_vcmpsd_evex.md R184). -/
inductive MaskedLoadFaults where
  | suppressed
  | taken
  | either
deriving DecidableEq, Repr

/-- The width in bits of one vector register (00_scope.md R5). -/
inductive VlMax where
  | bits128
  | bits256
  | bits512
deriving DecidableEq, Repr

/-- `VLMAX` as a number of bits. -/
def VlMax.bits : VlMax → Nat
  | .bits128 => 128
  | .bits256 => 256
  | .bits512 => 512

/-- `VLMAX` as a number of 64-bit elements (00_scope.md R7). -/
def VlMax.elements : VlMax → Nat
  | .bits128 => 2
  | .bits256 => 4
  | .bits512 => 8

/-- The parameters an implementation fixes (00_scope.md R5). They stand in State as a constant (log 2). -/
structure Params where
  hasSse2 : Bool
  hasAvx : Bool
  hasAvx512f : Bool
  vlmax : VlMax
  maxKl : Nat
  immReserved : ImmReserved
  maskedLoadFaults : MaskedLoadFaults
deriving DecidableEq, Repr

/-- `NVEC(mode)`, the count of addressable vector registers (00_scope.md R5). -/
def Params.nvec (p : Params) : Mode → Nat
  | .mode16 => 8
  | .mode32 => 8
  | .mode64 => if p.hasAvx512f then 32 else 16

/-- `NK`, the count of mask registers (00_scope.md R5). -/
def nk : Nat := 8

/-- `MAX_KL >= 1` (00_scope.md R5). -/
def Params.legal (p : Params) : Bool := decide (1 ≤ p.maxKl)

/-- FREE VALUE. Whether the `n`th masked-off EVEX memory form calls `MemRead` when `MASKED_LOAD_FAULTS` is
`either`: both behaviours are admitted (43_vcmpsd_evex.md R184, log 15). -/
opaque Config.maskedLoadTaken : Nat → Bool

end Sys2Proof
end

