-- ==== Sys2Proof/Machine/State.lean ====
section
/-! DEFINITION. The state of 10_state.md, the exceptions of 60_exceptions.md R200 and the reasons a step stops. -/

namespace Sys2Proof.Machine

/-- The exceptions the instruction can raise, with what the fault outcome carries (60_exceptions.md R200).
PRESUMED, unsafe where a claim rests on a code below 2^32: error codes are 32 bits wide and the faulting address
64; the spec gives them no width (log 26). -/
inductive Exception where
  /-- Invalid opcode (R202). -/
  | ud
  /-- Device not available (R204). -/
  | nm
  /-- Stack-segment fault, error code 0 (R207). -/
  | ss
  /-- General protection, error code 0 (R206). -/
  | gp
  /-- Page fault with its fault code and faulting linear address, carried as info (R208). -/
  | pf (code : BitVec 32) (addr : BitVec 64)
  /-- Alignment check, error code 0 (R209). -/
  | ac
  /-- SIMD floating-point exception (R203). -/
  | xm
deriving DecidableEq, Repr

/-- What the oracle `MemRead` answers to one call (20_memory.md R50, log 8). -/
inductive MemAnswer where
  /-- The bytes of memory. -/
  | memory
  /-- This value, whatever memory holds: another agent or a device answered (R56, R59). -/
  | value (b : BitVec 64)
  /-- The segment's limit, canonical form or null check fails: #GP(0), or #SS(0) in segment SS
  (60_exceptions.md R206, R207). -/
  | segmentViolation
  /-- Translation of a byte of the access fails, with any code and address of the widths of log 26 (R208). -/
  | pageFault (code : BitVec 32) (addr : BitVec 64)
deriving DecidableEq, Repr

/-- A fault of the oracle `Fetch` (20_memory.md R57, 60_exceptions.md R211 step 1; the widths of `pf` are log 26's). -/
inductive FetchFault where
  | gp
  | ss
  | pf (code : BitVec 32) (addr : BitVec 64)
deriving DecidableEq, Repr

/-- The bases of the six segments (10_state.md R30). -/
structure SegBases where
  es : BitVec 64
  cs : BitVec 64
  ss : BitVec 64
  ds : BitVec 64
  fs : BitVec 64
  gs : BitVec 64
deriving DecidableEq, Repr

/-- The launched program: `len` bytes at offset `base` (70_reset_and_hazards.md R247). -/
structure ProgramText where
  base : BitVec 64
  len : Nat
deriving DecidableEq, Repr

/-- The state of the machine. INVENTORY.md, '## State', gives each field's rule and reset value. -/
structure State where
  /-- The configuration parameters, a constant (00_scope.md R5, log 2). -/
  params : Params
  /-- The operating mode (R5). -/
  mode : Mode
  /-- The address of the instruction's first byte, below `2 ^ 64`, `2 ^ 32` or `2 ^ 16` by mode (10_state.md R29). -/
  pc : BitVec 64
  /-- General registers `RAX, RCX, RDX, RBX, RSP, RBP, RSI, RDI, R8 .. R15` (R30). -/
  x : Vector (BitVec 64) 16
  /-- Segment bases (R30). -/
  segBase : SegBases
  /-- Vector registers (R20). -/
  v : Vector VecReg 32
  /-- Mask registers (R23). -/
  k : Vector MaskReg 8
  /-- The control and status register (R25). -/
  mxcsr : BitVec 32
  /-- Control register 0: EM bit 2, TS bit 3, AM bit 18 (R31). -/
  cr0 : BitVec 64
  /-- Control register 4: OSFXSR bit 9, OSXMMEXCPT bit 10, OSXSAVE bit 18 (R31). -/
  cr4 : BitVec 64
  /-- Extended control register 0 (R31). -/
  xcr0 : BitVec 64
  /-- The flags register: AC bit 18 (R27, R31). -/
  rflags : BitVec 64
  /-- The privilege level (60_exceptions.md R209, R217). -/
  cpl : Fin 4
  /-- Memory by linear address (20_memory.md R57), in the canonical form of `Memory.wf`. -/
  mem : List Host.Cell
  /-- The answers of the next calls of `MemRead`, oldest first; after the last, memory answers (R50, log 8). -/
  answers : List MemAnswer
  /-- Linear addresses at which `Fetch` faults (R57, log 12). -/
  fetchFaults : List (Nat × FetchFault)
  /-- The launched program's bounds, or none (70_reset_and_hazards.md R247, log 13). -/
  text : Option ProgramText
  /-- The model's own counter of free values drawn (log 15). -/
  draws : Nat
deriving DecidableEq, Repr

/-- Why the machine stops with a fault. -/
inductive Fault where
  /-- An exception ends the run with the state at the fault: 60_exceptions.md R212, `Fault(E, info, state')`.
  Raised by every meaning and by `step`. Safe: a terminal fault is no final state of a successful run (log 14). -/
  | exception (e : Exception) (after : State)
deriving DecidableEq, Repr

/-- Why a step has no meaning. -/
inductive Refusal where
  /-- An instruction that exec rejects by name. Raised by no arm now. Safe. -/
  | notModelled (mnemonic : String)
  /-- `Refused("not in scope")`, 30_encoding.md R93. Raised by `step`. Safe. -/
  | notInScope
  /-- `Refused("prefix combination not specified")`, R73, R75. Raised by `step`. Safe. -/
  | prefixCombination
  /-- `Refused("EVEX.z = 1 on a mask destination")`, 43_vcmpsd_evex.md R185. Raised by `step`. Safe. -/
  | zeroingMarker
  /-- A `Mode32` encoding that names a register above 7, 30_encoding.md R78, R92. Raised by `step`. Safe. -/
  | highRegister
  /-- `Refused("reserved imm8 bits")`, R98. Raised by every meaning when `IMM_RESERVED` is `refuse`. Safe. -/
  | reservedImm
  /-- `Refused("ran off the program")`, 70_reset_and_hazards.md R247. Raised by `step`. Safe. -/
  | ranOffProgram
deriving DecidableEq, Repr

/-- The three outcomes of 00_scope.md R9. -/
abbrev Result := Host.Outcome State Fault Refusal

/-- Right after reset: 10_state.md R34's values; where it gives none, the values of log 2, 5, 7, 8, 12, 13, 15. -/
def State.reset : State where
  params := ⟨true, true, true, .bits512, 64, .refuse, .either⟩
  mode := .mode16
  pc := 0xFFF0#64
  x := Vector.replicate 16 0#64
  segBase := ⟨0#64, 0xFFFF0000#64, 0#64, 0#64, 0#64, 0#64⟩
  v := Vector.replicate 32 (Vector.replicate 8 0#64)
  k := Vector.replicate 8 0
  mxcsr := 0x1F80#32
  cr0 := 0x60000010#64
  cr4 := 0#64
  xcr0 := 1#64
  rflags := 2#64
  cpl := 0
  mem := []
  answers := []
  fetchFaults := []
  text := none
  draws := 0

end Sys2Proof.Machine
end

