-- ==== Sys2Proof/Machine/Compare.lean ====
section
/-! DEFINITION. Doubles as numbers, the relation and the predicate table (40_predicates.md R120 to R126). -/

namespace Sys2Proof.Machine

/-! ## Operands as numbers (R120, R121) -/

/-- The sign bit `s`. -/
def fpSign (b : Word) : Bool := b.getLsbD 63

/-- The biased exponent `e`. -/
def fpExp (b : Word) : Nat := (b.extractLsb' 52 11).toNat

/-- The fraction `f`. -/
def fpFrac (b : Word) : Nat := (b.extractLsb' 0 52).toNat

/-- The classes of R120. -/
inductive FpClass where
  | zero
  | denormal
  | normal
  | infinity
  | nan
deriving DecidableEq, Repr

/-- The class of a double (R120). -/
def fpClass (b : Word) : FpClass :=
  if fpExp b = 0 then (if fpFrac b = 0 then .zero else .denormal)
  else if fpExp b = 2047 then (if fpFrac b = 0 then .infinity else .nan)
  else .normal

/-- Not a number (R120). -/
def isNaN (b : Word) : Bool := fpClass b == .nan

/-- A signalling NaN: a NaN with `f[51] = 0` (R121). -/
def isSNaN (b : Word) : Bool := isNaN b && !b.getLsbD 51

/-- A quiet NaN: a NaN with `f[51] = 1` (R121). -/
def isQNaN (b : Word) : Bool := isNaN b && b.getLsbD 51

/-- A denormal (R120). -/
def isDenormal (b : Word) : Bool := fpClass b == .denormal

/-- A real number extended with the infinities; a finite value stands here multiplied by `2 ^ 1074`, which makes
every double an integer. -/
inductive ExtReal where
  | negInf
  | finite (n : Int)
  | posInf
deriving DecidableEq, Repr

/-- `-inf < every finite < +inf` (R122). -/
def ExtReal.lt : ExtReal → ExtReal → Bool
  | .negInf, .negInf => false
  | .negInf, .finite _ => true
  | .negInf, .posInf => true
  | .finite _, .negInf => false
  | .finite a, .finite b => decide (a < b)
  | .finite _, .posInf => true
  | .posInf, .negInf => false
  | .posInf, .finite _ => false
  | .posInf, .posInf => false

/-- A magnitude with a sign. -/
def signed (neg : Bool) (m : Nat) : Int := if neg then -(m : Int) else (m : Int)

/-- The value of a double that is no NaN, times `2 ^ 1074` when finite (R120). A NaN has none: `rel` never asks it. -/
def fpValue (b : Word) : ExtReal :=
  match fpClass b with
  | .zero => .finite 0
  | .denormal => .finite (signed (fpSign b) (fpFrac b))
  | .normal => .finite (signed (fpSign b) ((2 ^ 52 + fpFrac b) * 2 ^ (fpExp b - 1)))
  | .infinity => if fpSign b then .negInf else .posInf
  | .nan => .finite 0

/-- The four relations of R122. -/
inductive Rel where
  | lt
  | eq
  | gt
  | un
deriving DecidableEq, Repr

/-- `Rel(A, B)` (R122). -/
def rel (a b : Word) : Rel :=
  if isNaN a || isNaN b then .un
  else if (fpValue a).lt (fpValue b) then .lt
  else if fpValue a = fpValue b then .eq
  else .gt

/-- The integer key of R122's bit-level test. -/
def fpKey (b : Word) : Int := signed (b.getLsbD 63) (b.extractLsb' 0 63).toNat

/-! ## The predicates (R123, R124) -/

/-- A row of the predicate table: the truth value in the columns LT, EQ, GT, UN, and whether a quiet NaN signals. -/
structure PredRow where
  name : String
  lt : Bool
  eq : Bool
  gt : Bool
  un : Bool
  signals : Bool
deriving DecidableEq, Repr

/-- Rows 0 to 7, the legacy form's `PredicateMapping8` (R123, R126). -/
def predRows0 : List PredRow := [
  ⟨"EQ_OQ", false, true, false, false, false⟩,
  ⟨"LT_OS", true, false, false, false, true⟩,
  ⟨"LE_OS", true, true, false, false, true⟩,
  ⟨"UNORD_Q", false, false, false, true, false⟩,
  ⟨"NEQ_UQ", true, false, true, true, false⟩,
  ⟨"NLT_US", false, true, true, true, true⟩,
  ⟨"NLE_US", false, false, true, true, true⟩,
  ⟨"ORD_Q", true, true, true, false, false⟩]

/-- Rows 8 to 15 (R123). -/
def predRows1 : List PredRow := [
  ⟨"EQ_UQ", false, true, false, true, false⟩,
  ⟨"NGE_US", true, false, false, true, true⟩,
  ⟨"NGT_US", true, true, false, true, true⟩,
  ⟨"FALSE_OQ", false, false, false, false, false⟩,
  ⟨"NEQ_OQ", true, false, true, false, false⟩,
  ⟨"GE_OS", false, true, true, false, true⟩,
  ⟨"GT_OS", false, false, true, false, true⟩,
  ⟨"TRUE_UQ", true, true, true, true, false⟩]

/-- Rows 16 to 23 (R123). -/
def predRows2 : List PredRow := [
  ⟨"EQ_OS", false, true, false, false, true⟩,
  ⟨"LT_OQ", true, false, false, false, false⟩,
  ⟨"LE_OQ", true, true, false, false, false⟩,
  ⟨"UNORD_S", false, false, false, true, true⟩,
  ⟨"NEQ_US", true, false, true, true, true⟩,
  ⟨"NLT_UQ", false, true, true, true, false⟩,
  ⟨"NLE_UQ", false, false, true, true, false⟩,
  ⟨"ORD_S", true, true, true, false, true⟩]

/-- Rows 24 to 31 (R123). -/
def predRows3 : List PredRow := [
  ⟨"EQ_US", false, true, false, true, true⟩,
  ⟨"NGE_UQ", true, false, false, true, false⟩,
  ⟨"NGT_UQ", true, true, false, true, false⟩,
  ⟨"FALSE_OS", false, false, false, false, true⟩,
  ⟨"NEQ_OS", true, false, true, false, true⟩,
  ⟨"GE_OQ", false, true, true, false, false⟩,
  ⟨"GT_OQ", false, false, true, false, false⟩,
  ⟨"TRUE_US", true, true, true, true, true⟩]

/-- `PredicateMapping32` (R123). -/
def predTable : List PredRow := predRows0 ++ predRows1 ++ predRows2 ++ predRows3

/-- The table has a row for every 5-bit predicate number. -/
theorem predTable_length : predTable.length = 32 := rfl

/-- Row `p` of the table. -/
def predRow (p : BitVec 5) : PredRow := predTable[p.toNat]'(predTable_length ▸ p.isLt)

/-- `Pred(p, rel)` (R123). -/
def pred (p : BitVec 5) (r : Rel) : Bool :=
  match r with
  | .lt => (predRow p).lt
  | .eq => (predRow p).eq
  | .gt => (predRow p).gt
  | .un => (predRow p).un

/-- `Signals(p)` (R124). -/
def signals (p : BitVec 5) : Bool := (predRow p).signals

end Sys2Proof.Machine
end

