-- ==== Sys2Proof/Machine/Flags.lean ====
section
/-! DEFINITION. MXCSR and the floating-point exception flags (10_state.md R25, R26; 40_predicates.md R134 to R140). -/

namespace Sys2Proof.Machine

/-! ## The fields the instruction reads and writes (R25) -/

/-- `MXCSR.IE`. -/
def mxIE (m : BitVec 32) : Bool := m.getLsbD 0

/-- `MXCSR.DE`. -/
def mxDE (m : BitVec 32) : Bool := m.getLsbD 1

/-- `MXCSR.DAZ`. -/
def mxDAZ (m : BitVec 32) : Bool := m.getLsbD 6

/-- `MXCSR.IM`. -/
def mxIM (m : BitVec 32) : Bool := m.getLsbD 7

/-- `MXCSR.DM`. -/
def mxDM (m : BitVec 32) : Bool := m.getLsbD 8

/-- `MXCSR.IE <- 1`. -/
def setIE (m : BitVec 32) : BitVec 32 := m ||| 1#32

/-- `MXCSR.DE <- 1`. -/
def setDE (m : BitVec 32) : BitVec 32 := m ||| 2#32

/-! ## The conditions (R135, R136, R137) -/

/-- `invalid` (R135). -/
def invalid (a b : Word) (p : BitVec 5) : Bool :=
  isSNaN a || isSNaN b || ((isNaN a || isNaN b) && signals p)

/-- `denorm` (R136). -/
def denorm (a b : Word) (mxcsr : BitVec 32) : Bool :=
  (isDenormal a || isDenormal b) && !mxDAZ mxcsr && !(isNaN a || isNaN b)

/-- The operand as it is compared: under DAZ a denormal is a zero of its own sign (R137). -/
def dazed (mxcsr : BitVec 32) (a : Word) : Word :=
  if mxDAZ mxcsr && isDenormal a then a.extractLsb' 63 1 ++ 0#63 else a

/-- The result of the comparison, before any flag (R122, R123, R137). -/
def compareResult (a b : Word) (p : BitVec 5) (mxcsr : BitVec 32) : Bool :=
  pred p (rel (dazed mxcsr a) (dazed mxcsr b))

/-- `MXCSR` with IE set when the comparison is invalid (R140). -/
def flagInvalid (a b : Word) (p : BitVec 5) (mxcsr : BitVec 32) : BitVec 32 :=
  if invalid a b p then setIE mxcsr else mxcsr

/-- `MXCSR` with the flags of the conditions that hold: IE, then DE (R138, R140). -/
def flagged (a b : Word) (p : BitVec 5) (mxcsr : BitVec 32) : BitVec 32 :=
  if denorm a b mxcsr then setDE (flagInvalid a b p mxcsr) else flagInvalid a b p mxcsr

/-- A condition holds and is unmasked (R139). -/
def unmasked (a b : Word) (p : BitVec 5) (mxcsr : BitVec 32) : Bool :=
  (invalid a b p && !mxIM mxcsr) || (denorm a b mxcsr && !mxDM mxcsr)

/-- The outcome of `Compare`: a result, or an exception, with `MXCSR` after it. -/
inductive CompareOutcome where
  | done (result : Bool) (mxcsr : BitVec 32)
  | raises (e : Exception) (mxcsr : BitVec 32)
deriving DecidableEq, Repr

/-- `Compare(A, B, p, sae)` (R140). -/
def compareOp (a b : Word) (p : BitVec 5) (sae osxmmexcpt : Bool) (mxcsr : BitVec 32) : CompareOutcome :=
  if sae then .done (compareResult a b p mxcsr) mxcsr
  else if unmasked a b p mxcsr then .raises (if osxmmexcpt then .xm else .ud) (flagged a b p mxcsr)
  else .done (compareResult a b p mxcsr) (flagged a b p mxcsr)

end Sys2Proof.Machine
end

