-- ==== Sys2Proof/Syntax.lean ====
section
/-! DEFINITION. The instructions as syntax: the five encodings of the opcode table and its 72 pseudo-mnemonic rows
(30_encoding.md R70, R72, R103, R104). Fields stored inverted in a prefix stand here un-inverted (R76, R77, R88). -/

namespace Sys2Proof

/-- A segment register (10_state.md R30, 30_encoding.md R73, R86). -/
inductive Seg where
  | es
  | cs
  | ss
  | ds
  | fs
  | gs
deriving DecidableEq, Repr

/-- The admitted optional prefixes of every form: at most one segment override and at most one `67` (R73). -/
structure Prefixes where
  seg : Option Seg
  a67 : Bool
deriving DecidableEq, Repr

/-- The REX prefix of the legacy form (R75). `w` is ignored by CMPSD. -/
structure Rex where
  w : Bool
  r : Bool
  x : Bool
  b : Bool
deriving DecidableEq, Repr

/-- The two-byte VEX prefix (R76); `l` is ignored (R77). -/
structure Vex2 where
  r : Bool
  vvvv : BitVec 4
  l : Bool
deriving DecidableEq, Repr

/-- The three-byte VEX prefix (R77); `w` and `l` are ignored. -/
structure Vex3 where
  r : Bool
  x : Bool
  b : Bool
  w : Bool
  vvvv : BitVec 4
  l : Bool
deriving DecidableEq, Repr

/-- Either VEX prefix (R77: equal fields are the same instruction). -/
inductive VexPrefix where
  | two (v : Vex2)
  | three (v : Vex3)
deriving DecidableEq, Repr

/-- The EVEX prefix with its fixed fields left out: `R = R' = 0`, `P0[3:2] = 00b`, `W = 1`, `P1[2] = 1b`,
`mm = 01b`, `pp = 11b`, `z = 0` (R88 to R91, 43_vcmpsd_evex.md R185). `vHi` is `V'`, `ll` is `L'L`, `bc` is
the bit `b`. -/
structure Evex where
  x : Bool
  b : Bool
  vvvv : BitVec 4
  ll : BitVec 2
  bc : Bool
  vHi : Bool
  aaa : BitVec 3
deriving DecidableEq, Repr

/-- The displacement of 32-bit and 64-bit addressing (R83): `mod` 00b, 01b, 10b. -/
inductive Disp where
  | none
  | d8 (d : BitVec 8)
  | d32 (d : BitVec 32)
deriving DecidableEq, Repr

/-- The displacement of 16-bit addressing (R83, R87). -/
inductive Disp16 where
  | none
  | d8 (d : BitVec 8)
  | d16 (d : BitVec 16)
deriving DecidableEq, Repr

/-- The memory operand `m64` as its ModRM, SIB and displacement bytes say it (R80 to R87); register numbers here
are the three bits of the byte, which the prefix bits X and B extend.
`direct` is `mod = 00b, rm = 101b`; `based` has no SIB; `sibNoBase` is `base = 101b` with `mod = 00b`;
`direct16` and `based16` are 16-bit addressing. -/
inductive MemForm where
  | direct (disp : BitVec 32)
  | based (rm : BitVec 3) (disp : Disp)
  | sib (scale : BitVec 2) (index : BitVec 3) (base : BitVec 3) (disp : Disp)
  | sibNoBase (scale : BitVec 2) (index : BitVec 3) (disp : BitVec 32)
  | direct16 (disp : BitVec 16)
  | based16 (rm : BitVec 3) (disp : Disp16)
deriving DecidableEq, Repr

/-- The operand in `ModRM.r/m`: a register when `mod = 11b`, else memory (R80). -/
inductive RegMem where
  | reg (rm : BitVec 3)
  | mem (m : MemForm)
deriving DecidableEq, Repr

/-- The ModRM byte with what follows it: `reg` and the register-or-memory operand (R80). -/
structure ModRM where
  reg : BitVec 3
  rm : RegMem
deriving DecidableEq, Repr

/-- All but `imm8` of a legacy form (R72). -/
structure LegacyOps where
  pfx : Prefixes
  rex : Option Rex
  t : ModRM
deriving DecidableEq, Repr

/-- All but `imm8` of a VEX form (R72). -/
structure VexOps where
  pfx : Prefixes
  vex : VexPrefix
  t : ModRM
deriving DecidableEq, Repr

/-- All but `imm8` of an EVEX form (R72). -/
structure EvexOps where
  pfx : Prefixes
  evex : Evex
  t : ModRM
deriving DecidableEq, Repr

/-- The three forms of 00_scope.md R1 with their operands and `imm8`. -/
inductive Form where
  | legacy (o : LegacyOps) (imm : BitVec 8)
  | vex (o : VexOps) (imm : BitVec 8)
  | evex (o : EvexOps) (imm : BitVec 8)
deriving DecidableEq, Repr

/-- One constructor per row of the opcode table, in its order. The first five are the encodings; the decoder answers
with these. The others are the pseudo-mnemonics (R103 to R106), an assembler's names of the first five with a fixed
`imm8` (log 1). -/
inductive Instr where
  | cmpsd (p : Prefixes) (t : ModRM) (imm : BitVec 8)
  | cmpsdRex (p : Prefixes) (rex : Rex) (t : ModRM) (imm : BitVec 8)
  | vcmpsdVex2 (p : Prefixes) (vex : Vex2) (t : ModRM) (imm : BitVec 8)
  | vcmpsdVex3 (p : Prefixes) (vex : Vex3) (t : ModRM) (imm : BitVec 8)
  | vcmpsdEvex (p : Prefixes) (evex : Evex) (t : ModRM) (imm : BitVec 8)
  | cmpeqsd (o : LegacyOps)
  | cmpltsd (o : LegacyOps)
  | cmplesd (o : LegacyOps)
  | cmpunordsd (o : LegacyOps)
  | cmpneqsd (o : LegacyOps)
  | cmpnltsd (o : LegacyOps)
  | cmpnlesd (o : LegacyOps)
  | cmpordsd (o : LegacyOps)
  | vcmpeqsdVex (o : VexOps)
  | vcmpltsdVex (o : VexOps)
  | vcmplesdVex (o : VexOps)
  | vcmpunordsdVex (o : VexOps)
  | vcmpneqsdVex (o : VexOps)
  | vcmpnltsdVex (o : VexOps)
  | vcmpnlesdVex (o : VexOps)
  | vcmpordsdVex (o : VexOps)
  | vcmpeq_uqsdVex (o : VexOps)
  | vcmpngesdVex (o : VexOps)
  | vcmpngtsdVex (o : VexOps)
  | vcmpfalsesdVex (o : VexOps)
  | vcmpneq_oqsdVex (o : VexOps)
  | vcmpgesdVex (o : VexOps)
  | vcmpgtsdVex (o : VexOps)
  | vcmptruesdVex (o : VexOps)
  | vcmpeq_ossdVex (o : VexOps)
  | vcmplt_oqsdVex (o : VexOps)
  | vcmple_oqsdVex (o : VexOps)
  | vcmpunord_ssdVex (o : VexOps)
  | vcmpneq_ussdVex (o : VexOps)
  | vcmpnlt_uqsdVex (o : VexOps)
  | vcmpnle_uqsdVex (o : VexOps)
  | vcmpord_ssdVex (o : VexOps)
  | vcmpeq_ussdVex (o : VexOps)
  | vcmpnge_uqsdVex (o : VexOps)
  | vcmpngt_uqsdVex (o : VexOps)
  | vcmpfalse_ossdVex (o : VexOps)
  | vcmpneq_ossdVex (o : VexOps)
  | vcmpge_oqsdVex (o : VexOps)
  | vcmpgt_oqsdVex (o : VexOps)
  | vcmptrue_ussdVex (o : VexOps)
  | vcmpeqsdEvex (o : EvexOps)
  | vcmpltsdEvex (o : EvexOps)
  | vcmplesdEvex (o : EvexOps)
  | vcmpunordsdEvex (o : EvexOps)
  | vcmpneqsdEvex (o : EvexOps)
  | vcmpnltsdEvex (o : EvexOps)
  | vcmpnlesdEvex (o : EvexOps)
  | vcmpordsdEvex (o : EvexOps)
  | vcmpeq_uqsdEvex (o : EvexOps)
  | vcmpngesdEvex (o : EvexOps)
  | vcmpngtsdEvex (o : EvexOps)
  | vcmpfalsesdEvex (o : EvexOps)
  | vcmpneq_oqsdEvex (o : EvexOps)
  | vcmpgesdEvex (o : EvexOps)
  | vcmpgtsdEvex (o : EvexOps)
  | vcmptruesdEvex (o : EvexOps)
  | vcmpeq_ossdEvex (o : EvexOps)
  | vcmplt_oqsdEvex (o : EvexOps)
  | vcmple_oqsdEvex (o : EvexOps)
  | vcmpunord_ssdEvex (o : EvexOps)
  | vcmpneq_ussdEvex (o : EvexOps)
  | vcmpnlt_uqsdEvex (o : EvexOps)
  | vcmpnle_uqsdEvex (o : EvexOps)
  | vcmpord_ssdEvex (o : EvexOps)
  | vcmpeq_ussdEvex (o : EvexOps)
  | vcmpnge_uqsdEvex (o : EvexOps)
  | vcmpngt_uqsdEvex (o : EvexOps)
  | vcmpfalse_ossdEvex (o : EvexOps)
  | vcmpneq_ossdEvex (o : EvexOps)
  | vcmpge_oqsdEvex (o : EvexOps)
  | vcmpgt_oqsdEvex (o : EvexOps)
  | vcmptrue_ussdEvex (o : EvexOps)
deriving DecidableEq, Repr

end Sys2Proof
end

