-- ==== Sys2Proof/Decode.lean ====
section
/-! DEFINITION. The decoder (30_encoding.md R72 to R95, R100), total on any bytes and rejecting by name; then the
encoder, from the same tables; then the length (R95) and the host's entry `decodeTableWord`. -/

namespace Sys2Proof

/-! ## The expansion of a row into a form and of a form into its encoding -/

/-- The form an instruction is, with its `imm8`: the pseudo-mnemonics are forms with a fixed `imm8`
(30_encoding.md R103, R104, R105). -/
def Instr.form : Instr → Form
  | .cmpsd p t imm => .legacy ⟨p, none, t⟩ imm
  | .cmpsdRex p rex t imm => .legacy ⟨p, some rex, t⟩ imm
  | .vcmpsdVex2 p v t imm => .vex ⟨p, .two v, t⟩ imm
  | .vcmpsdVex3 p v t imm => .vex ⟨p, .three v, t⟩ imm
  | .vcmpsdEvex p e t imm => .evex ⟨p, e, t⟩ imm
  | .cmpeqsd o => .legacy o 0x00#8
  | .cmpltsd o => .legacy o 0x01#8
  | .cmplesd o => .legacy o 0x02#8
  | .cmpunordsd o => .legacy o 0x03#8
  | .cmpneqsd o => .legacy o 0x04#8
  | .cmpnltsd o => .legacy o 0x05#8
  | .cmpnlesd o => .legacy o 0x06#8
  | .cmpordsd o => .legacy o 0x07#8
  | .vcmpeqsdVex o => .vex o 0x00#8
  | .vcmpltsdVex o => .vex o 0x01#8
  | .vcmplesdVex o => .vex o 0x02#8
  | .vcmpunordsdVex o => .vex o 0x03#8
  | .vcmpneqsdVex o => .vex o 0x04#8
  | .vcmpnltsdVex o => .vex o 0x05#8
  | .vcmpnlesdVex o => .vex o 0x06#8
  | .vcmpordsdVex o => .vex o 0x07#8
  | .vcmpeq_uqsdVex o => .vex o 0x08#8
  | .vcmpngesdVex o => .vex o 0x09#8
  | .vcmpngtsdVex o => .vex o 0x0A#8
  | .vcmpfalsesdVex o => .vex o 0x0B#8
  | .vcmpneq_oqsdVex o => .vex o 0x0C#8
  | .vcmpgesdVex o => .vex o 0x0D#8
  | .vcmpgtsdVex o => .vex o 0x0E#8
  | .vcmptruesdVex o => .vex o 0x0F#8
  | .vcmpeq_ossdVex o => .vex o 0x10#8
  | .vcmplt_oqsdVex o => .vex o 0x11#8
  | .vcmple_oqsdVex o => .vex o 0x12#8
  | .vcmpunord_ssdVex o => .vex o 0x13#8
  | .vcmpneq_ussdVex o => .vex o 0x14#8
  | .vcmpnlt_uqsdVex o => .vex o 0x15#8
  | .vcmpnle_uqsdVex o => .vex o 0x16#8
  | .vcmpord_ssdVex o => .vex o 0x17#8
  | .vcmpeq_ussdVex o => .vex o 0x18#8
  | .vcmpnge_uqsdVex o => .vex o 0x19#8
  | .vcmpngt_uqsdVex o => .vex o 0x1A#8
  | .vcmpfalse_ossdVex o => .vex o 0x1B#8
  | .vcmpneq_ossdVex o => .vex o 0x1C#8
  | .vcmpge_oqsdVex o => .vex o 0x1D#8
  | .vcmpgt_oqsdVex o => .vex o 0x1E#8
  | .vcmptrue_ussdVex o => .vex o 0x1F#8
  | .vcmpeqsdEvex o => .evex o 0x00#8
  | .vcmpltsdEvex o => .evex o 0x01#8
  | .vcmplesdEvex o => .evex o 0x02#8
  | .vcmpunordsdEvex o => .evex o 0x03#8
  | .vcmpneqsdEvex o => .evex o 0x04#8
  | .vcmpnltsdEvex o => .evex o 0x05#8
  | .vcmpnlesdEvex o => .evex o 0x06#8
  | .vcmpordsdEvex o => .evex o 0x07#8
  | .vcmpeq_uqsdEvex o => .evex o 0x08#8
  | .vcmpngesdEvex o => .evex o 0x09#8
  | .vcmpngtsdEvex o => .evex o 0x0A#8
  | .vcmpfalsesdEvex o => .evex o 0x0B#8
  | .vcmpneq_oqsdEvex o => .evex o 0x0C#8
  | .vcmpgesdEvex o => .evex o 0x0D#8
  | .vcmpgtsdEvex o => .evex o 0x0E#8
  | .vcmptruesdEvex o => .evex o 0x0F#8
  | .vcmpeq_ossdEvex o => .evex o 0x10#8
  | .vcmplt_oqsdEvex o => .evex o 0x11#8
  | .vcmple_oqsdEvex o => .evex o 0x12#8
  | .vcmpunord_ssdEvex o => .evex o 0x13#8
  | .vcmpneq_ussdEvex o => .evex o 0x14#8
  | .vcmpnlt_uqsdEvex o => .evex o 0x15#8
  | .vcmpnle_uqsdEvex o => .evex o 0x16#8
  | .vcmpord_ssdEvex o => .evex o 0x17#8
  | .vcmpeq_ussdEvex o => .evex o 0x18#8
  | .vcmpnge_uqsdEvex o => .evex o 0x19#8
  | .vcmpngt_uqsdEvex o => .evex o 0x1A#8
  | .vcmpfalse_ossdEvex o => .evex o 0x1B#8
  | .vcmpneq_ossdEvex o => .evex o 0x1C#8
  | .vcmpge_oqsdEvex o => .evex o 0x1D#8
  | .vcmpgt_oqsdEvex o => .evex o 0x1E#8
  | .vcmptrue_ussdEvex o => .evex o 0x1F#8

/-- The encoding row of a form: what the decoder answers. -/
def Form.instr : Form → Instr
  | .legacy ⟨p, none, t⟩ imm => .cmpsd p t imm
  | .legacy ⟨p, some rex, t⟩ imm => .cmpsdRex p rex t imm
  | .vex ⟨p, .two v, t⟩ imm => .vcmpsdVex2 p v t imm
  | .vex ⟨p, .three v, t⟩ imm => .vcmpsdVex3 p v t imm
  | .evex ⟨p, e, t⟩ imm => .vcmpsdEvex p e t imm

/-- The encoding an instruction stands for: itself for the five encodings, its "encoded form" for a
pseudo-mnemonic (R103, R104). -/
def Instr.core (i : Instr) : Instr := i.form.instr

/-! ## Prefixes (R73) -/

/-- The segment a segment-override byte names (R73). -/
def Seg.ofByte (b : Byte) : Option Seg :=
  if b = 0x26#8 then some .es
  else if b = 0x2E#8 then some .cs
  else if b = 0x36#8 then some .ss
  else if b = 0x3E#8 then some .ds
  else if b = 0x64#8 then some .fs
  else if b = 0x65#8 then some .gs
  else none

/-- The segment-override byte of a segment (R73). -/
def Seg.byte : Seg → Byte
  | .es => 0x26#8
  | .cs => 0x2E#8
  | .ss => 0x36#8
  | .ds => 0x3E#8
  | .fs => 0x64#8
  | .gs => 0x65#8

/-- The legacy prefix bytes read before the first byte that is none of them (R73, R93). -/
structure PrefixScan where
  f2 : Nat
  f3 : Nat
  opsize : Nat
  lock : Nat
  a67 : Nat
  segs : List Seg
deriving DecidableEq, Repr

/-- No prefix read yet. -/
def PrefixScan.empty : PrefixScan := ⟨0, 0, 0, 0, 0, []⟩

/-- One more prefix byte, or none when the byte is no legacy prefix (R73). -/
def PrefixScan.add (p : PrefixScan) (b : Byte) : Option PrefixScan :=
  if b = 0xF2#8 then some { p with f2 := p.f2 + 1 }
  else if b = 0xF3#8 then some { p with f3 := p.f3 + 1 }
  else if b = 0x66#8 then some { p with opsize := p.opsize + 1 }
  else if b = 0xF0#8 then some { p with lock := p.lock + 1 }
  else if b = 0x67#8 then some { p with a67 := p.a67 + 1 }
  else match Seg.ofByte b with
    | some g => some { p with segs := p.segs ++ [g] }
    | none => none

/-- Read prefix bytes until a byte that is none of them (R93). -/
def scanPrefixes : PrefixScan → List Byte → PrefixScan × List Byte
  | p, [] => (p, [])
  | p, b :: bs =>
    match p.add b with
    | some p' => scanPrefixes p' bs
    | none => (p, b :: bs)

/-- The optional prefixes as the instruction keeps them. -/
def PrefixScan.prefixes (p : PrefixScan) : Prefixes := ⟨p.segs.head?, decide (0 < p.a67)⟩

/-- At most one segment override and at most one `67` (R73). -/
def PrefixScan.optionalOk (p : PrefixScan) : Bool := decide (p.segs.length ≤ 1 ∧ p.a67 ≤ 1)

/-- The legacy form's admitted combination: `F2` exactly once, no `66`, no `F3`, no LOCK (R73). -/
def PrefixScan.legacyOk (p : PrefixScan) : Bool :=
  decide (p.f2 = 1 ∧ p.f3 = 0 ∧ p.opsize = 0 ∧ p.lock = 0) && p.optionalOk

/-- A prefix that may not stand before a VEX or EVEX prefix: `66`, `F2`, `F3` or LOCK (R73). -/
def PrefixScan.barsVex (p : PrefixScan) : Bool :=
  decide (0 < p.f2 + p.f3 + p.opsize + p.lock)

/-- A REX byte, `40`..`4F` (R75). -/
def isRexByte (b : Byte) : Bool := b.extractLsb' 4 4 == 4#4

/-- The first byte of a VEX or EVEX prefix (R93). -/
def isVexByte (b : Byte) : Bool := b == 0xC5#8 || b == 0xC4#8 || b == 0x62#8

/-! ## Prefix bytes as fields -/

/-- The REX byte `0100 W R X B` (R75). -/
def Rex.ofByte (b : Byte) : Rex := ⟨b.getLsbD 3, b.getLsbD 2, b.getLsbD 1, b.getLsbD 0⟩

/-- The REX byte of its fields (R75). -/
def Rex.byte (r : Rex) : Byte :=
  4#4 ++ BitVec.ofBool r.w ++ BitVec.ofBool r.r ++ BitVec.ofBool r.x ++ BitVec.ofBool r.b

/-- The byte `V1` of the two-byte VEX prefix: `~R`, `~vvvv`, `L`, `pp` (R76). -/
def Vex2.ofByte (v1 : Byte) : Vex2 := ⟨!v1.getLsbD 7, ~~~(v1.extractLsb' 3 4), v1.getLsbD 2⟩

/-- `V1` of its fields, with `pp = 11b` (R76, R77). -/
def Vex2.byte (v : Vex2) : Byte :=
  BitVec.ofBool (!v.r) ++ ~~~v.vvvv ++ BitVec.ofBool v.l ++ 3#2

/-- The bytes `V1`, `V2` of the three-byte VEX prefix (R77). -/
def Vex3.ofBytes (v1 v2 : Byte) : Vex3 :=
  ⟨!v1.getLsbD 7, !v1.getLsbD 6, !v1.getLsbD 5, v2.getLsbD 7, ~~~(v2.extractLsb' 3 4), v2.getLsbD 2⟩

/-- `V1` of its fields, with `mmmmm = 00001b` (R77). -/
def Vex3.byte1 (v : Vex3) : Byte :=
  BitVec.ofBool (!v.r) ++ BitVec.ofBool (!v.x) ++ BitVec.ofBool (!v.b) ++ 1#5

/-- `V2` of its fields, with `pp = 11b` (R77). -/
def Vex3.byte2 (v : Vex3) : Byte :=
  BitVec.ofBool v.w ++ ~~~v.vvvv ++ BitVec.ofBool v.l ++ 3#2

/-- The bytes `P0`, `P1`, `P2` of the EVEX prefix, less the fixed fields (R88). -/
def Evex.ofBytes (p0 p1 p2 : Byte) : Evex :=
  ⟨!p0.getLsbD 6, !p0.getLsbD 5, ~~~(p1.extractLsb' 3 4), p2.extractLsb' 5 2, p2.getLsbD 4, !p2.getLsbD 3,
    p2.extractLsb' 0 3⟩

/-- `P0` of the fields, with `R = R' = 0`, `P0[3:2] = 00b`, `mm = 01b` (R88, R90, R91). -/
def Evex.byte0 (e : Evex) : Byte :=
  1#1 ++ BitVec.ofBool (!e.x) ++ BitVec.ofBool (!e.b) ++ 1#1 ++ 0#2 ++ 1#2

/-- `P1` of the fields, with `W = 1`, `P1[2] = 1b`, `pp = 11b` (R88, R90). -/
def Evex.byte1 (e : Evex) : Byte := 1#1 ++ ~~~e.vvvv ++ 1#1 ++ 3#2

/-- `P2` of the fields, with `z = 0` (R88, 43_vcmpsd_evex.md R185). -/
def Evex.byte2 (e : Evex) : Byte :=
  0#1 ++ e.ll ++ BitVec.ofBool e.bc ++ BitVec.ofBool (!e.vHi) ++ e.aaa

/-- An EVEX field value that is #UD: `P0[3:2] != 00b`, `P1[2] != 1b`, `W = 0`, `R = 1` or `R' = 1` (R90, R91, R100;
`W = 0`: log 16). -/
def evexFixedBad (p0 p1 : Byte) : Bool :=
  p0.extractLsb' 2 2 != 0#2 || !p1.getLsbD 2 || !p1.getLsbD 7 || !p0.getLsbD 7 || !p0.getLsbD 4

/-! ## ModRM, SIB, displacement (R80 to R87) -/

/-- Address-size choice of the decoder: 16-bit addressing in `Mode32` with `67` (R81); `Mode16` without `67`
(log 17). -/
def a16Of (m : Mode) (a67 : Bool) : Bool :=
  match m with
  | .mode64 => false
  | .mode32 => a67
  | .mode16 => !a67

/-- A little-endian 16-bit displacement (R83). -/
def take16 : List Byte → Option (BitVec 16 × List Byte)
  | b0 :: b1 :: rest => some (b1 ++ b0, rest)
  | _ => none

/-- A little-endian 32-bit displacement (R83). -/
def take32 : List Byte → Option (BitVec 32 × List Byte)
  | b0 :: b1 :: b2 :: b3 :: rest => some (b3 ++ b2 ++ b1 ++ b0, rest)
  | _ => none

/-- The displacement that `mod` calls for, 32-bit and 64-bit addressing (R83). -/
def takeDisp (md : BitVec 2) (bs : List Byte) : Option (Disp × List Byte) :=
  if md = 0#2 then some (.none, bs)
  else if md = 1#2 then
    match bs with
    | d :: rest => some (.d8 d, rest)
    | [] => none
  else (take32 bs).map fun p => (.d32 p.1, p.2)

/-- The displacement that `mod` calls for, 16-bit addressing (R83, R87). -/
def takeDisp16 (md : BitVec 2) (bs : List Byte) : Option (Disp16 × List Byte) :=
  if md = 0#2 then some (.none, bs)
  else if md = 1#2 then
    match bs with
    | d :: rest => some (.d8 d, rest)
    | [] => none
  else (take16 bs).map fun p => (.d16 p.1, p.2)

/-- The SIB byte and what follows it (R85). -/
def takeSib (md : BitVec 2) : List Byte → Option (MemForm × List Byte)
  | [] => none
  | s :: rest =>
    if md = 0#2 ∧ s.extractLsb' 0 3 = 5#3 then
      (take32 rest).map fun p => (.sibNoBase (s.extractLsb' 6 2) (s.extractLsb' 3 3) p.1, p.2)
    else
      (takeDisp md rest).map fun p =>
        (.sib (s.extractLsb' 6 2) (s.extractLsb' 3 3) (s.extractLsb' 0 3) p.1, p.2)

/-- The memory operand, 32-bit and 64-bit addressing (R82, R85). -/
def takeMem (md : BitVec 2) (rm : BitVec 3) (bs : List Byte) : Option (MemForm × List Byte) :=
  if rm = 4#3 then takeSib md bs
  else if md = 0#2 ∧ rm = 5#3 then (take32 bs).map fun p => (.direct p.1, p.2)
  else (takeDisp md bs).map fun p => (.based rm p.1, p.2)

/-- The memory operand, 16-bit addressing (R87). -/
def takeMem16 (md : BitVec 2) (rm : BitVec 3) (bs : List Byte) : Option (MemForm × List Byte) :=
  if md = 0#2 ∧ rm = 6#3 then (take16 bs).map fun p => (.direct16 p.1, p.2)
  else (takeDisp16 md bs).map fun p => (.based16 rm p.1, p.2)

/-- The ModRM byte and what follows it (R80). -/
def takeModRM (a16 : Bool) : List Byte → Option (ModRM × List Byte)
  | [] => none
  | b :: rest =>
    if b.extractLsb' 6 2 = 3#2 then some (⟨b.extractLsb' 3 3, .reg (b.extractLsb' 0 3)⟩, rest)
    else
      (if a16 then takeMem16 (b.extractLsb' 6 2) (b.extractLsb' 0 3) rest
        else takeMem (b.extractLsb' 6 2) (b.extractLsb' 0 3) rest).map
        fun p => (⟨b.extractLsb' 3 3, .mem p.1⟩, p.2)

/-- Everything after the opcode byte: ModRM and what follows it, then `imm8` (R72, R93). -/
def takeTail (a16 : Bool) (bs : List Byte) : Option (ModRM × BitVec 8 × List Byte) :=
  match takeModRM a16 bs with
  | some (t, imm :: rest) => some (t, imm, rest)
  | _ => none

/-! ## The decoder (R93) -/

/-- Why bytes are no admitted instruction. -/
inductive Reject where
  /-- The bytes end inside the instruction. -/
  | needMore
  /-- An encoding that raises #UD (R100, 60_exceptions.md R202). -/
  | undefinedOpcode
  /-- Another instruction, or none: `Refused("not in scope")` (R93). -/
  | notInScope
  /-- `Refused("prefix combination not specified")` (R73, R75). -/
  | prefixCombination
  /-- `Refused("EVEX.z = 1 on a mask destination")` (43_vcmpsd_evex.md R185). -/
  | zeroingMarker
  /-- A `Mode32` encoding that names a register above 7 (R78, R92). -/
  | highRegister
deriving DecidableEq, Repr

/-- What the decoder answers: an instruction with the bytes after it, or a rejection. -/
inductive Decoded where
  | instr (i : Instr) (rest : List Byte)
  | reject (r : Reject)
deriving DecidableEq, Repr

/-- The legacy form, from the byte after `0F` on (R74). -/
def decodeLegacy (m : Mode) (p : PrefixScan) (rex : Option Rex) : List Byte → Decoded
  | [] => .reject .needMore
  | op :: rest =>
    if op ≠ 0xC2#8 ∨ p.f2 = 0 then .reject .notInScope
    else match takeTail (a16Of m p.prefixes.a67) rest with
      | none => .reject .needMore
      | some (t, imm, rest) =>
        if m = .mode16 ∨ 0 < p.lock then .reject .undefinedOpcode
        else if p.legacyOk = false then .reject .prefixCombination
        else .instr (Form.legacy ⟨p.prefixes, rex, t⟩ imm).instr rest

/-- The checks of a VEX or EVEX form once its length is known, in the order of log 18: #UD (R71, R73, R90, R91), then
the refusals (R73, R185, R78, R92). -/
def vexChecks (m : Mode) (p : PrefixScan) (rexBefore fixedBad z high : Bool) (i : Instr) (rest : List Byte) :
    Decoded :=
  if m = .mode16 ∨ p.barsVex = true ∨ rexBefore = true ∨ fixedBad = true then .reject .undefinedOpcode
  else if p.optionalOk = false then .reject .prefixCombination
  else if z = true then .reject .zeroingMarker
  else if m = .mode32 ∧ high = true then .reject .highRegister
  else .instr i rest

/-- The two-byte VEX form, from `V1` on (R76, R77, R78). -/
def decodeVex2 (m : Mode) (p : PrefixScan) (rexBefore : Bool) : List Byte → Decoded
  | [] => .reject .needMore
  | v1 :: rest =>
    if m ≠ .mode64 ∧ v1.extractLsb' 6 2 ≠ 3#2 ∨ v1.extractLsb' 0 2 ≠ 3#2 then .reject .notInScope
    else match rest with
      | [] => .reject .needMore
      | op :: rest =>
        if op ≠ 0xC2#8 then .reject .notInScope
        else match takeTail (a16Of m p.prefixes.a67) rest with
          | none => .reject .needMore
          | some (t, imm, rest) =>
            vexChecks m p rexBefore false false ((Vex2.ofByte v1).vvvv.getLsbD 3)
              (Form.vex ⟨p.prefixes, .two (Vex2.ofByte v1), t⟩ imm).instr rest

/-- The three-byte VEX form, from `V1` on (R77, R78). -/
def decodeVex3 (m : Mode) (p : PrefixScan) (rexBefore : Bool) : List Byte → Decoded
  | [] => .reject .needMore
  | v1 :: rest =>
    if m ≠ .mode64 ∧ v1.extractLsb' 6 2 ≠ 3#2 ∨ v1.extractLsb' 0 5 ≠ 1#5 then .reject .notInScope
    else match rest with
      | [] => .reject .needMore
      | v2 :: rest =>
        if v2.extractLsb' 0 2 ≠ 3#2 then .reject .notInScope
        else match rest with
          | [] => .reject .needMore
          | op :: rest =>
            if op ≠ 0xC2#8 then .reject .notInScope
            else match takeTail (a16Of m p.prefixes.a67) rest with
              | none => .reject .needMore
              | some (t, imm, rest) =>
                vexChecks m p rexBefore false false
                  ((Vex3.ofBytes v1 v2).b || (Vex3.ofBytes v1 v2).vvvv.getLsbD 3)
                  (Form.vex ⟨p.prefixes, .three (Vex3.ofBytes v1 v2), t⟩ imm).instr rest

/-- The EVEX form, from `P0` on (R88 to R92): recognised by `mm`, `pp` and the opcode, then checked. -/
def decodeEvex (m : Mode) (p : PrefixScan) (rexBefore : Bool) : List Byte → Decoded
  | [] => .reject .needMore
  | p0 :: rest =>
    if m ≠ .mode64 ∧ p0.extractLsb' 6 2 ≠ 3#2 ∨ p0.extractLsb' 0 2 ≠ 1#2 then .reject .notInScope
    else match rest with
      | [] => .reject .needMore
      | p1 :: rest =>
        if p1.extractLsb' 0 2 ≠ 3#2 then .reject .notInScope
        else match rest with
          | p2 :: op :: rest =>
            if op ≠ 0xC2#8 then .reject .notInScope
            else match takeTail (a16Of m p.prefixes.a67) rest with
              | none => .reject .needMore
              | some (t, imm, rest) =>
                vexChecks m p rexBefore (evexFixedBad p0 p1) (p2.getLsbD 7)
                  ((Evex.ofBytes p0 p1 p2).b || (Evex.ofBytes p0 p1 p2).vHi ||
                    (Evex.ofBytes p0 p1 p2).vvvv.getLsbD 3)
                  (Form.evex ⟨p.prefixes, Evex.ofBytes p0 p1 p2, t⟩ imm).instr rest
          | _ => .reject .needMore

/-- A VEX or EVEX form by its first byte. -/
def decodeVexLike (m : Mode) (p : PrefixScan) (rexBefore : Bool) (b : Byte) (rest : List Byte) : Decoded :=
  if b = 0xC5#8 then decodeVex2 m p rexBefore rest
  else if b = 0xC4#8 then decodeVex3 m p rexBefore rest
  else decodeEvex m p rexBefore rest

/-- The first byte that is no legacy prefix, and what follows it (R75, R93). A REX byte exists in `Mode64` only and
must stand immediately before `0F`; followed by another prefix it is refused; before VEX or EVEX it is #UD (R73).
DESIGN CHOICE (log 25): a REX byte followed by another prefix is refused at once, also where a LOCK or another prefix
that R73 makes #UD stands among the prefixes. -/
def decodeAfterPrefixes (m : Mode) (p : PrefixScan) : List Byte → Decoded
  | [] => .reject .needMore
  | b :: rest =>
    if isVexByte b then decodeVexLike m p false b rest
    else if b = 0x0F#8 then decodeLegacy m p none rest
    else if m = .mode64 ∧ isRexByte b = true then
      match rest with
      | [] => .reject .needMore
      | c :: rest =>
        if isVexByte c then decodeVexLike m p true c rest
        else if c = 0x0F#8 then decodeLegacy m p (some (Rex.ofByte b)) rest
        else if (PrefixScan.empty.add c).isSome || isRexByte c then .reject .prefixCombination
        else .reject .notInScope
    else .reject .notInScope

/-- The decoder (R93): the instruction at the head of the bytes, with the bytes after it, or a rejection by name. -/
def decode (m : Mode) (bs : List Byte) : Decoded :=
  decodeAfterPrefixes m (scanPrefixes .empty bs).1 (scanPrefixes .empty bs).2

/-! ## The encoder (R72) -/

/-- The optional prefixes, segment override first. -/
def Prefixes.bytes (p : Prefixes) : List Byte :=
  (match p.seg with
    | some g => [g.byte]
    | none => []) ++ (if p.a67 then [0x67#8] else [])

/-- A 16-bit displacement, little-endian (R83). -/
def bytes16 (d : BitVec 16) : List Byte := [d.extractLsb' 0 8, d.extractLsb' 8 8]

/-- A 32-bit displacement, little-endian (R83). -/
def bytes32 (d : BitVec 32) : List Byte :=
  [d.extractLsb' 0 8, d.extractLsb' 8 8, d.extractLsb' 16 8, d.extractLsb' 24 8]

/-- The field `mod` of a displacement (R83). -/
def Disp.md : Disp → BitVec 2
  | .none => 0#2
  | .d8 _ => 1#2
  | .d32 _ => 2#2

/-- The bytes of a displacement (R83). -/
def Disp.bytes : Disp → List Byte
  | .none => []
  | .d8 d => [d]
  | .d32 d => bytes32 d

/-- The field `mod` of a 16-bit-addressing displacement (R83, R87). -/
def Disp16.md : Disp16 → BitVec 2
  | .none => 0#2
  | .d8 _ => 1#2
  | .d16 _ => 2#2

/-- The bytes of a 16-bit-addressing displacement (R83, R87). -/
def Disp16.bytes : Disp16 → List Byte
  | .none => []
  | .d8 d => [d]
  | .d16 d => bytes16 d

/-- The fields `mod` and `r/m` of a memory operand (R82, R85, R87). -/
def MemForm.modRm : MemForm → BitVec 2 × BitVec 3
  | .direct _ => (0#2, 5#3)
  | .based rm d => (d.md, rm)
  | .sib _ _ _ d => (d.md, 4#3)
  | .sibNoBase _ _ _ => (0#2, 4#3)
  | .direct16 _ => (0#2, 6#3)
  | .based16 rm d => (d.md, rm)

/-- The SIB and displacement bytes of a memory operand (R83, R85). -/
def MemForm.bytes : MemForm → List Byte
  | .direct d => bytes32 d
  | .based _ d => d.bytes
  | .sib s x b d => (s ++ x ++ b) :: d.bytes
  | .sibNoBase s x d => (s ++ x ++ 5#3) :: bytes32 d
  | .direct16 d => bytes16 d
  | .based16 _ d => d.bytes

/-- The ModRM byte and what follows it (R80). -/
def ModRM.bytes (t : ModRM) : List Byte :=
  match t.rm with
  | .reg n => [3#2 ++ t.reg ++ n]
  | .mem f => (f.modRm.1 ++ t.reg ++ f.modRm.2) :: f.bytes

/-- The bytes of the optional REX prefix (R75). -/
def rexBytes : Option Rex → List Byte
  | none => []
  | some r => [r.byte]

/-- The VEX prefix bytes (R76, R77). -/
def VexPrefix.bytes : VexPrefix → List Byte
  | .two v => [0xC5#8, v.byte]
  | .three v => [0xC4#8, v.byte1, v.byte2]

/-- The EVEX prefix bytes (R88). -/
def Evex.bytes (e : Evex) : List Byte := [0x62#8, e.byte0, e.byte1, e.byte2]

/-- The bytes of a form after its legacy prefixes, the mandatory `F2` among them (R72). -/
def Form.body : Form → List Byte
  | .legacy o imm => rexBytes o.rex ++ 0x0F#8 :: 0xC2#8 :: (o.t.bytes ++ [imm])
  | .vex o imm => o.vex.bytes ++ 0xC2#8 :: (o.t.bytes ++ [imm])
  | .evex o imm => o.evex.bytes ++ 0xC2#8 :: (o.t.bytes ++ [imm])

/-- The optional prefixes of a form. -/
def Form.pfx : Form → Prefixes
  | .legacy o _ => o.pfx
  | .vex o _ => o.pfx
  | .evex o _ => o.pfx

/-- The mandatory prefix `F2` of the legacy form (R73). -/
def Form.mandatory : Form → List Byte
  | .legacy _ _ => [0xF2#8]
  | .vex _ _ => []
  | .evex _ _ => []

/-- The bytes of a form (R72). -/
def Form.bytes (f : Form) : List Byte := f.pfx.bytes ++ (f.mandatory ++ f.body)

/-- The bytes of an instruction; a pseudo-mnemonic has those of its encoded form (R103, R104). -/
def encode (i : Instr) : List Byte := i.form.bytes

/-! ## Length (R95) -/

/-- `n_prefix` less the mandatory `F2`. -/
def Prefixes.count (p : Prefixes) : Nat := (if p.seg.isSome then 1 else 0) + (if p.a67 then 1 else 0)

/-- `n_disp` of a displacement. -/
def Disp.size : Disp → Nat
  | .none => 0
  | .d8 _ => 1
  | .d32 _ => 4

/-- `n_disp` of a 16-bit-addressing displacement. -/
def Disp16.size : Disp16 → Nat
  | .none => 0
  | .d8 _ => 1
  | .d16 _ => 2

/-- `n_sib + n_disp` of a memory operand. -/
def MemForm.size : MemForm → Nat
  | .direct _ => 4
  | .based _ d => d.size
  | .sib _ _ _ d => 1 + d.size
  | .sibNoBase _ _ _ => 1 + 4
  | .direct16 _ => 2
  | .based16 _ d => d.size

/-- `n_sib + n_disp`. -/
def RegMem.size : RegMem → Nat
  | .reg _ => 0
  | .mem f => f.size

/-- `n_pfx2` of a VEX form. -/
def VexPrefix.size : VexPrefix → Nat
  | .two _ => 2
  | .three _ => 3

/-- `len = n_prefix + n_pfx2 + 1 + 1 + n_sib + n_disp + 1` (R95). -/
def Form.length : Form → Nat
  | .legacy o _ => (o.pfx.count + 1) + (1 + if o.rex.isSome then 1 else 0) + 1 + 1 + o.t.rm.size + 1
  | .vex o _ => o.pfx.count + o.vex.size + 1 + 1 + o.t.rm.size + 1
  | .evex o _ => o.pfx.count + 4 + 1 + 1 + o.t.rm.size + 1

/-- The length of an instruction in bytes (R95). -/
def Instr.length (i : Instr) : Nat := i.form.length

/-! ## The opcode table's words -/

/-- The most bytes an instruction may have (R95). -/
def maxLength : Nat := 15

/-- The low `nbits` bits of `w` as instruction bytes, bits 7:0 first, then bytes of zeros up to the longest instruction
(20_memory.md R53). -/
def tableBytes (nbits w : Nat) : List Byte :=
  (List.range maxLength).map fun i => BitVec.ofNat 8 ((w % 2 ^ nbits) >>> (8 * i))

/-- The instruction the decoder reads from a table row's bits, in `Mode64`. -/
def decodeTableWord (nbits w : Nat) : Option Instr :=
  match decode .mode64 (tableBytes nbits w) with
  | .instr i _ => some i
  | .reject _ => none

end Sys2Proof
end

