-- ==== Sys2Proof/Machine/Ops.lean ====
section
/-! DEFINITION. The named operations over registers, control bits, memory, fetch and the program counter; raising an
exception; the checks every form makes before it reads an operand (60_exceptions.md R211 steps 2 and 3). -/

namespace Sys2Proof.Machine

/-! ## Registers -/

/-- `v[n]` (10_state.md R20). -/
def State.vreg (s : State) (n : BitVec 5) : VecReg := s.v[n.toNat]'n.isLt

/-- `v[n] <- r` (R20). -/
def State.setVreg (s : State) (n : BitVec 5) (r : VecReg) : State := { s with v := s.v.set n.toNat r n.isLt }

/-- `k[n]` (R23). -/
def State.kreg (s : State) (n : BitVec 3) : MaskReg := s.k[n.toNat]'n.isLt

/-- `k[n] <- r` (R23). -/
def State.setKreg (s : State) (n : BitVec 3) (r : MaskReg) : State := { s with k := s.k.set n.toNat r n.isLt }

/-- `MXCSR <- m` (R25). -/
def State.setMxcsr (s : State) (m : BitVec 32) : State := { s with mxcsr := m }

/-- `x[n]` (R30). -/
def State.xreg (s : State) (n : BitVec 4) : BitVec 64 := s.x[n.toNat]'n.isLt

/-- `elem(r, 0)`, bits 63:0 (00_scope.md R7). -/
def elem0 (r : VecReg) : Word := r[0]

/-- `elem(r, 1)`, bits 127:64 (00_scope.md R7). -/
def elem1 (r : VecReg) : Word := r[1]

/-- `xmm<n>`, `v[n][127:0]` (R20). -/
def State.xmm (s : State) (n : BitVec 5) : BitVec 128 := (s.vreg n)[1] ++ (s.vreg n)[0]

/-- `ymm<n>`, `v[n][255:0]`, which exists when `VLMAX >= 256` (R20). -/
def State.ymm (s : State) (n : BitVec 5) : BitVec 256 := (s.vreg n)[3] ++ (s.vreg n)[2] ++ s.xmm n

/-- `zmm<n>`, `v[n][511:0]`, which exists when `VLMAX = 512` (R20). -/
def State.zmm (s : State) (n : BitVec 5) : BitVec 512 :=
  (s.vreg n)[7] ++ (s.vreg n)[6] ++ (s.vreg n)[5] ++ (s.vreg n)[4] ++ s.ymm n

/-! ## Control bits (10_state.md R31) -/

/-- `CR0.EM`. -/
def State.em (s : State) : Bool := s.cr0.getLsbD 2

/-- `CR0.TS`. -/
def State.ts (s : State) : Bool := s.cr0.getLsbD 3

/-- `CR0.AM`. -/
def State.am (s : State) : Bool := s.cr0.getLsbD 18

/-- `CR4.OSFXSR`. -/
def State.osfxsr (s : State) : Bool := s.cr4.getLsbD 9

/-- `CR4.OSXMMEXCPT`. -/
def State.osxmmexcpt (s : State) : Bool := s.cr4.getLsbD 10

/-- `CR4.OSXSAVE`. -/
def State.osxsave (s : State) : Bool := s.cr4.getLsbD 18

/-- `EFLAGS.AC`. -/
def State.acFlag (s : State) : Bool := s.rflags.getLsbD 18

/-- `XCR0[2:1] = 11b`. -/
def State.xcr0Avx (s : State) : Bool := s.xcr0.extractLsb' 1 2 == 3#2

/-- `XCR0[7:5] = 111b`. -/
def State.xcr0Avx512 (s : State) : Bool := s.xcr0.extractLsb' 5 3 == 7#3

/-! ## Raising an exception (60_exceptions.md R212) -/

/-- `raise <Exception>(info)`: the run ends with the exception and the state given, which the instruction has not
written but for the `MXCSR` flags of R211 step 5. Nothing is delivered, so nothing returns (R212, R214). -/
def raise (e : Exception) (s : State) : Result := .fault (.exception e s)

/-- The vector number of an exception (R200). -/
def Exception.vector : Exception → Nat
  | .ud => 6
  | .nm => 7
  | .ss => 12
  | .gp => 13
  | .pf _ _ => 14
  | .ac => 17
  | .xm => 19

/-- The error code of an exception, where it has one (R200; PRESUMED 32 bits wide, log 26). -/
def Exception.errorCode : Exception → Option (BitVec 32)
  | .ud => none
  | .nm => none
  | .ss => some 0#32
  | .gp => some 0#32
  | .pf code _ => some code
  | .ac => some 0#32
  | .xm => none

/-! ## Memory (20_memory.md) -/

/-- What a byte of memory that nothing has written reads as (log 7). -/
def Memory.unlisted : Byte := 0#8

/-- The byte at a linear address. -/
def Memory.read : List Host.Cell → Nat → Byte
  | [], _ => Memory.unlisted
  | (b, x) :: rest, a => if a = b then x else Memory.read rest a

/-- A cell put before a memory, unless it says what an unlisted address reads as. -/
def Memory.push (a : Nat) (x : Byte) (rest : List Host.Cell) : List Host.Cell :=
  if x = Memory.unlisted then rest else (a, x) :: rest

/-- Memory with one byte written, in canonical form. -/
def Memory.write : List Host.Cell → Nat → Byte → List Host.Cell
  | [], a, x => Memory.push a x []
  | (b, y) :: rest, a, x =>
    if a < b then Memory.push a x ((b, y) :: rest)
    else if a = b then Memory.push a x rest
    else (b, y) :: Memory.write rest a x

/-- Memory with bytes written at `f 0`, `f 1`, and on. -/
def Memory.writeBytes (mem : List Host.Cell) (f : Nat → Nat) : Nat → List Byte → List Host.Cell
  | _, [] => mem
  | i, b :: bs => Memory.writeBytes (Memory.write mem (f i) b) f (i + 1) bs

/-- Every listed address is above `a`. -/
def Memory.above (a : Nat) (mem : List Host.Cell) : Bool := mem.all fun c => decide (a < c.1)

/-- The canonical form: addresses strictly rising and no entry equal to what an unlisted address reads as. -/
def Memory.wf : List Host.Cell → Bool
  | [] => true
  | (a, x) :: rest => x != Memory.unlisted && Memory.above a rest && Memory.wf rest

/-- The base a segment adds: in `Mode64` the bases of ES, CS, SS and DS count as 0 (30_encoding.md R86). -/
def State.segmentBase (s : State) (g : Seg) : BitVec 64 :=
  match g with
  | .es => if s.mode = .mode64 then 0#64 else s.segBase.es
  | .cs => if s.mode = .mode64 then 0#64 else s.segBase.cs
  | .ss => if s.mode = .mode64 then 0#64 else s.segBase.ss
  | .ds => if s.mode = .mode64 then 0#64 else s.segBase.ds
  | .fs => s.segBase.fs
  | .gs => s.segBase.gs

/-- The count of linear addresses: `2 ^ 64` in `Mode64`, else `2 ^ 32` (log 9). -/
def Mode.linearSize : Mode → Nat
  | .mode64 => 2 ^ 64
  | .mode32 => 2 ^ 32
  | .mode16 => 2 ^ 32

/-- The linear address of byte `i` of an access at an offset of a segment (20_memory.md R57, log 9). -/
def State.linear (s : State) (g : Seg) (off : BitVec 64) (i : Nat) : Nat :=
  ((s.segmentBase g).toNat + off.toNat + i) % Mode.linearSize s.mode

/-- Byte `i` of a data access. -/
def State.dataByte (s : State) (g : Seg) (ea : BitVec 64) (i : Nat) : Byte := Memory.read s.mem (s.linear g ea i)

/-- The 8 bytes of memory at an offset, little-endian (20_memory.md R53). -/
def State.read64 (s : State) (g : Seg) (ea : BitVec 64) : Word :=
  s.dataByte g ea 7 ++ s.dataByte g ea 6 ++ s.dataByte g ea 5 ++ s.dataByte g ea 4 ++
    s.dataByte g ea 3 ++ s.dataByte g ea 2 ++ s.dataByte g ea 1 ++ s.dataByte g ea 0

/-- Alignment checking is on and the address is not a multiple of 8 (20_memory.md R54, 60_exceptions.md R209). -/
def State.misaligned (s : State) (ea : BitVec 64) : Bool :=
  s.am && s.acFlag && decide (s.cpl = 3) && ea.extractLsb' 0 3 != 0#3

/-- What `MemRead` returns (20_memory.md R50). -/
inductive MemResult where
  | value (b : Word)
  | fault (e : Exception)
deriving DecidableEq, Repr

/-- A value read, or #AC(0) (60_exceptions.md R209; the order of faults: log 10). -/
def State.alignChecked (s : State) (ea : BitVec 64) (b : Word) : MemResult :=
  if s.misaligned ea then .fault .ac else .value b

/-- `MemRead(seg, addr, 8)`: what the oracle's next answer says, and where it says nothing else, the bytes of memory
(20_memory.md R50, R52, R53, R55; 60_exceptions.md R206 to R209). -/
def State.memRead (s : State) (g : Seg) (ea : BitVec 64) : MemResult :=
  match s.answers with
  | [] => s.alignChecked ea (s.read64 g ea)
  | .memory :: _ => s.alignChecked ea (s.read64 g ea)
  | .value b :: _ => s.alignChecked ea b
  | .segmentViolation :: _ => .fault (if g = .ss then .ss else .gp)
  | .pageFault code addr :: _ => .fault (.pf code addr)

/-- The oracle has answered one call. -/
def State.answered (s : State) : State := { s with answers := s.answers.tail }

/-! ## Program counter (10_state.md R29) -/

/-- An address truncated to the width of `pc` in the mode. -/
def Mode.truncPc (m : Mode) (a : BitVec 64) : BitVec 64 :=
  match m with
  | .mode64 => a
  | .mode32 => (a.setWidth 32).setWidth 64
  | .mode16 => (a.setWidth 16).setWidth 64

/-- `pc <- pc + len`, truncated. -/
def State.advance (s : State) (len : Nat) : State :=
  { s with pc := Mode.truncPc s.mode (s.pc + BitVec.ofNat 64 len) }

/-! ## Instruction fetch (20_memory.md R57, 60_exceptions.md R211 step 1) -/

/-- Why no further byte of the instruction can be fetched. -/
inductive FetchStop where
  /-- `Fetch` faults at the next byte. -/
  | fault (f : FetchFault)
  /-- The next byte lies at or beyond the end of the program text (70_reset_and_hazards.md R247). -/
  | textEnd
  /-- The instruction would be longer than 15 bytes (30_encoding.md R95). -/
  | tooLong
deriving DecidableEq, Repr

/-- The exception of a fetch fault. -/
def FetchFault.exception : FetchFault → Exception
  | .gp => .gp
  | .ss => .ss
  | .pf code addr => .pf code addr

/-- The fault that `Fetch` has at a linear address, if any. -/
def fetchFaultAt : List (Nat × FetchFault) → Nat → Option FetchFault
  | [], _ => none
  | (b, f) :: rest, a => if a = b then some f else fetchFaultAt rest a

/-- The byte at `pc + i` lies at or beyond the end of the program text (70_reset_and_hazards.md R247). DESIGN CHOICE
(log 13): `base + n` is compared as a number, not truncated to the width of `pc`. -/
def State.pastText (s : State) (i : Nat) : Bool :=
  match s.text with
  | none => false
  | some t => decide (t.base.toNat + t.len ≤ s.pc.toNat + i)

/-- The instruction bytes from `pc + i` on, at most `n` of them, and why they end. PRESUMED (log 24): `Fetch(pc, i)`
is the byte at offset `pc + i` of segment CS, which the spec does not name. -/
def State.fetchFrom (s : State) : Nat → Nat → List Byte × FetchStop
  | 0, _ => ([], .tooLong)
  | n + 1, i =>
    if s.pastText i then ([], .textEnd)
    else match fetchFaultAt s.fetchFaults (s.linear .cs s.pc i) with
      | some f => ([], .fault f)
      | none =>
        (Memory.read s.mem (s.linear .cs s.pc i) :: (s.fetchFrom n (i + 1)).1, (s.fetchFrom n (i + 1)).2)

/-- The bytes at `pc` that one instruction may use, and why they end. -/
def State.fetch (s : State) : List Byte × FetchStop := s.fetchFrom maxLength 0

/-! ## The checks before the operands are read (60_exceptions.md R211 steps 2 and 3) -/

/-- Which of the three forms is checked. -/
inductive FormKind where
  | legacy
  | vex
  | evex
deriving DecidableEq, Repr

/-- The form is an instruction here: the mode, the CPUID flag and the enabling bits (60_exceptions.md R202,
70_reset_and_hazards.md R243). -/
def State.enabled (s : State) : FormKind → Bool
  | .legacy => s.mode != .mode16 && s.params.hasSse2 && !s.em && s.osfxsr
  | .vex => s.mode != .mode16 && s.params.hasAvx && s.osxsave && s.xcr0Avx
  | .evex => s.mode != .mode16 && s.params.hasAvx512f && s.osxsave && s.xcr0Avx && s.xcr0Avx512

/-- The reserved bits of `imm8` are all 0: bits 7:3 in the legacy form, 7:5 in the others (30_encoding.md R98). -/
def immClear (f : FormKind) (imm : BitVec 8) : Bool :=
  match f with
  | .legacy => imm.extractLsb' 3 5 == 0#5
  | .vex => imm.extractLsb' 5 3 == 0#3
  | .evex => imm.extractLsb' 5 3 == 0#3

/-- The predicate number: `imm8[2:0]` in the legacy form, `imm8[4:0]` in the others (30_encoding.md R97). -/
def predicateOf (f : FormKind) (imm : BitVec 8) : BitVec 5 :=
  match f with
  | .legacy => (imm.extractLsb' 0 3).setWidth 5
  | .vex => imm.extractLsb' 0 5
  | .evex => imm.extractLsb' 0 5

/-- `IMM_RESERVED` refuses this `imm8` (30_encoding.md R98). -/
def State.refusesImm (s : State) (f : FormKind) (imm : BitVec 8) : Bool :=
  s.params.immReserved == .refuse && !immClear f imm

/-- The checks of R211 steps 2 and 3 in order, then the instruction: #UD, the refusal of reserved `imm8` bits, #NM
(log 18). `fieldsOk` is false for a field combination that is #UD. -/
def State.checked (s : State) (f : FormKind) (fieldsOk : Bool) (imm : BitVec 8) (body : Result) : Result :=
  if (s.enabled f && fieldsOk) = false then raise .ud s
  else if s.refusesImm f imm = true then .refused .reservedImm
  else if s.ts = true then raise .nm s
  else body

/-! ## Launch (70_reset_and_hazards.md R240, R243, R247; log 6) -/

/-- The launch premises of R243 for every form: `Mode64`, CR0.EM and TS clear, OSFXSR, OSXMMEXCPT and OSXSAVE set,
XCR0[2:1] and XCR0[7:5] set, and no bound on the program text. -/
def State.launched (s : State) : State :=
  { s with
    mode := .mode64
    cr0 := s.cr0 &&& ~~~0xC#64
    cr4 := s.cr4 ||| 0x40600#64
    xcr0 := s.xcr0 ||| 0xE6#64
    text := none }

/-- The launch of R247 from the launch state `s` of R240, which gives everything else: the `n` bytes of a program placed
at `base`, their bound as the program text, and `pc = base`. -/
def State.withProgram (s : State) (base : BitVec 64) (bs : List Byte) : State :=
  { s with
    pc := base
    mem := Memory.writeBytes s.mem (fun i => s.linear .cs base i) 0 bs
    text := some ⟨base, bs.length⟩ }

/-- A launch with the instruction bytes placed at `pc`, no bound on the program text and no fetch fault. -/
def State.withBytes (s : State) (bs : List Byte) : State :=
  { s.launched.withProgram s.pc bs with
    text := none
    fetchFaults := [] }

end Sys2Proof.Machine
end

