-- ==== Sys2Proof/Machine/Operands.lean ====
section
/-! DEFINITION. Register numbers, effective addresses and the second source operand (30_encoding.md R79 to R91, R99). -/

namespace Sys2Proof.Machine

/-! ## Register numbers (R79, R91) -/

/-- Three bits of an encoding byte with one extension bit before them (R79). -/
def ext4 (hi : Bool) (n : BitVec 3) : BitVec 4 := BitVec.ofBool hi ++ n

/-- Three bits of an encoding byte with two extension bits before them (R91). -/
def ext5 (hi lo : Bool) (n : BitVec 3) : BitVec 5 := BitVec.ofBool hi ++ BitVec.ofBool lo ++ n

/-- The extension bits R, X, B of a prefix, as R75, R76, R77 and R88 give them. -/
structure ExtBits where
  r : Bool
  x : Bool
  b : Bool
deriving DecidableEq, Repr

/-- Of the optional REX prefix; without it all are 0 (R75). -/
def rexBits : Option Rex → ExtBits
  | none => ⟨false, false, false⟩
  | some q => ⟨q.r, q.x, q.b⟩

/-- Of a VEX prefix; the two-byte one implies `X = B = 0` (R76, R77). -/
def vexBits : VexPrefix → ExtBits
  | .two q => ⟨q.r, false, false⟩
  | .three q => ⟨q.r, q.x, q.b⟩

/-- Of the EVEX prefix; `R` is 0 in every admitted encoding (R88, R91). -/
def evexBits (e : Evex) : ExtBits := ⟨false, e.x, e.b⟩

/-- `vvvv` of a VEX prefix (R76, R77). -/
def vexVvvv : VexPrefix → BitVec 4
  | .two q => q.vvvv
  | .three q => q.vvvv

/-- `d = R ++ ModRM.reg` (R79). -/
def destVec (e : ExtBits) (t : ModRM) : BitVec 5 := (ext4 e.r t.reg).setWidth 5

/-- `s1 = vvvv` of the VEX form (R79). -/
def vexSrc1 (o : VexOps) : BitVec 5 := (vexVvvv o.vex).setWidth 5

/-- `s1 = V' ++ vvvv` of the EVEX form (R91). -/
def evexSrc1 (e : Evex) : BitVec 5 := BitVec.ofBool e.vHi ++ e.vvvv

/-- `s2 = B ++ r/m` of the legacy and VEX forms (R79). -/
def src2Vec (e : ExtBits) (n : BitVec 3) : BitVec 5 := (ext4 e.b n).setWidth 5

/-- `s2 = X ++ B ++ r/m` of the EVEX form (R91). -/
def evexSrc2 (e : Evex) (n : BitVec 3) : BitVec 5 := ext5 e.x e.b n

/-! ## The effective address (R81 to R87) -/

/-- The address size `asz` (R81). -/
inductive AddrSize where
  | a16
  | a32
  | a64
deriving DecidableEq, Repr

/-- The address size of a mode, with or without `67` (R81; `Mode16`: log 17). -/
def addrSize (m : Mode) (a67 : Bool) : AddrSize :=
  match m with
  | .mode64 => if a67 then .a32 else .a64
  | .mode32 => if a67 then .a16 else .a32
  | .mode16 => if a67 then .a32 else .a16

/-- An address modulo `2 ^ asz`, zero-extended (R81). -/
def AddrSize.trunc (z : AddrSize) (a : BitVec 64) : BitVec 64 :=
  match z with
  | .a16 => (a.setWidth 16).setWidth 64
  | .a32 => (a.setWidth 32).setWidth 64
  | .a64 => a

/-- The factor of an 8-bit displacement: 8 in the EVEX form (tuple1-scalar, R84), 1 in the others (R83). -/
def FormKind.disp8Factor : FormKind → BitVec 64
  | .legacy => 1#64
  | .vex => 1#64
  | .evex => 8#64

/-- The displacement added to the address (R83, R84). -/
def dispValue (f : FormKind) : Disp → BitVec 64
  | .none => 0#64
  | .d8 d => d.signExtend 64 * f.disp8Factor
  | .d32 d => d.signExtend 64

/-- The displacement of 16-bit addressing (R83, R84, R87). -/
def disp16Value (f : FormKind) : Disp16 → BitVec 64
  | .none => 0#64
  | .d8 d => d.signExtend 64 * f.disp8Factor
  | .d16 d => d.signExtend 64

/-- The scaled index; the number 0100b is no index (R85). -/
def indexValue (s : State) (e : ExtBits) (scale : BitVec 2) (index : BitVec 3) : BitVec 64 :=
  if ext4 e.x index = 4#4 then 0#64 else s.xreg (ext4 e.x index) <<< scale.toNat

/-- The base sum of 16-bit addressing (R87). -/
def base16 (s : State) (rm : BitVec 3) : BitVec 64 :=
  if rm = 0#3 then s.xreg 3#4 + s.xreg 6#4
  else if rm = 1#3 then s.xreg 3#4 + s.xreg 7#4
  else if rm = 2#3 then s.xreg 5#4 + s.xreg 6#4
  else if rm = 3#3 then s.xreg 5#4 + s.xreg 7#4
  else if rm = 4#3 then s.xreg 6#4
  else if rm = 5#3 then s.xreg 7#4
  else if rm = 6#3 then s.xreg 5#4
  else s.xreg 3#4

/-- The address before it is truncated. A `direct` operand is RIP-relative in `Mode64`, from the end of the
instruction, and absolute in `Mode32` (R82). -/
def rawAddress (s : State) (f : FormKind) (e : ExtBits) (len : Nat) : MemForm → BitVec 64
  | .direct d =>
    if s.mode = .mode64 then s.pc + BitVec.ofNat 64 len + d.signExtend 64 else d.signExtend 64
  | .based rm d => s.xreg (ext4 e.b rm) + dispValue f d
  | .sib scale index base d => s.xreg (ext4 e.b base) + indexValue s e scale index + dispValue f d
  | .sibNoBase scale index d => indexValue s e scale index + d.signExtend 64
  | .direct16 d => d.signExtend 64
  | .based16 rm d => base16 s rm + disp16Value f d

/-- `ea` (R81 to R87). -/
def effectiveAddress (s : State) (f : FormKind) (p : Prefixes) (e : ExtBits) (len : Nat) (mf : MemForm) :
    BitVec 64 :=
  (addrSize s.mode p.a67).trunc (rawAddress s f e len mf)

/-- The default segment of a base register: SS for numbers 4 and 5 (R86). -/
def baseSegment (n : BitVec 4) : Seg := if n = 4#4 ∨ n = 5#4 then .ss else .ds

/-- The default segment (R86, R87). -/
def defaultSegment (e : ExtBits) : MemForm → Seg
  | .direct _ => .ds
  | .based rm _ => baseSegment (ext4 e.b rm)
  | .sib _ _ base _ => baseSegment (ext4 e.b base)
  | .sibNoBase _ _ _ => .ds
  | .direct16 _ => .ds
  | .based16 rm _ => if rm = 2#3 ∨ rm = 3#3 ∨ rm = 6#3 then .ss else .ds

/-- The segment of the access: an override replaces the default (R86). -/
def operandSegment (p : Prefixes) (e : ExtBits) (mf : MemForm) : Seg :=
  match p.seg with
  | some g => g
  | none => defaultSegment e mf

/-- `MemRead(seg, ea, 8)` of a memory operand (20_memory.md R52). -/
def readMem (s : State) (f : FormKind) (p : Prefixes) (e : ExtBits) (len : Nat) (mf : MemForm) : MemResult :=
  s.memRead (operandSegment p e mf) (effectiveAddress s f p e len mf)

/-! ## The second source (R99) -/

/-- Operand B of the legacy form. -/
def legacyB (s : State) (o : LegacyOps) (len : Nat) : MemResult :=
  match o.t.rm with
  | .reg n => .value (elem0 (s.vreg (src2Vec (rexBits o.rex) n)))
  | .mem mf => readMem s .legacy o.pfx (rexBits o.rex) len mf

/-- Operand B of the VEX form. -/
def vexB (s : State) (o : VexOps) (len : Nat) : MemResult :=
  match o.t.rm with
  | .reg n => .value (elem0 (s.vreg (src2Vec (vexBits o.vex) n)))
  | .mem mf => readMem s .vex o.pfx (vexBits o.vex) len mf

/-- Operand B of the EVEX form. -/
def evexB (s : State) (o : EvexOps) (len : Nat) : MemResult :=
  match o.t.rm with
  | .reg n => .value (elem0 (s.vreg (evexSrc2 o.evex n)))
  | .mem mf => readMem s .evex o.pfx (evexBits o.evex) len mf

/-- The operand is in memory. -/
def isMem : RegMem → Bool
  | .reg _ => false
  | .mem _ => true

/-- The state after operand B is read: a memory operand has used one answer of the oracle (20_memory.md R52, R56). -/
def State.afterRead (s : State) (rm : RegMem) : State := if isMem rm then s.answered else s

end Sys2Proof.Machine
end

