-- ==== Sys2Proof/Machine/Legacy.lean ====
section
/-! DEFINITION. The legacy SSE form, CMPSD xmm1, xmm2/m64, imm8 (41_cmpsd_legacy.md R160 to R162). -/

namespace Sys2Proof.Machine

/-- The boolean as the legacy and VEX forms write it (40_predicates.md R133). -/
def boolWord (r : Bool) : Word := if r then ones64 else 0#64

/-- A vector register with its low element replaced and every other bit kept (R161). -/
def withLow (old : VecReg) (w : Word) : VecReg := old.set 0 w

/-- The state after a legacy comparison (R161): flags, low element of the destination, `pc`. -/
def legacyDone (s : State) (o : LegacyOps) (len : Nat) (r : Bool) (mx : BitVec 32) : State :=
  (((s.afterRead o.t.rm).setMxcsr mx).setVreg (destVec (rexBits o.rex) o.t)
    (withLow (s.vreg (destVec (rexBits o.rex) o.t)) (boolWord r))).advance len

/-- The comparison once B is read (R161). -/
def legacyCompare (s : State) (o : LegacyOps) (imm : BitVec 8) (len : Nat) (b : Word) : Result :=
  match compareOp (elem0 (s.vreg (destVec (rexBits o.rex) o.t))) b (predicateOf .legacy imm) false s.osxmmexcpt
      s.mxcsr with
  | .done r mx => .next (legacyDone s o len r mx)
  | .raises e mx => raise e (s.setMxcsr mx)

/-- The legacy form (R161). -/
def runLegacy (o : LegacyOps) (imm : BitVec 8) (s : State) : Result :=
  s.checked .legacy true imm
    (match legacyB s o (Form.legacy o imm).length with
      | .fault e => raise e s
      | .value b => legacyCompare s o imm (Form.legacy o imm).length b)

/-- `CMPSD` without REX (R161). -/
def execCmpsd (p : Prefixes) (t : ModRM) (imm : BitVec 8) (s : State) : Result := runLegacy ⟨p, none, t⟩ imm s

/-- `CMPSD` with REX (R75, R161). -/
def execCmpsdRex (p : Prefixes) (rex : Rex) (t : ModRM) (imm : BitVec 8) (s : State) : Result :=
  runLegacy ⟨p, some rex, t⟩ imm s

end Sys2Proof.Machine
end

