-- ==== Sys2Proof/Machine/Vex.lean ====
section
/-! DEFINITION. The VEX form, VCMPSD xmm1, xmm2, xmm3/m64, imm8 (42_vcmpsd_vex.md R170 to R172). -/

namespace Sys2Proof.Machine

/-- The value the VEX form writes: result, copied element, zeros to the top of the register (R171). -/
def vexValue (src1 : VecReg) (r : Bool) : VecReg :=
  #v[boolWord r, elem1 src1, 0#64, 0#64, 0#64, 0#64, 0#64, 0#64]

/-- The state after a VEX comparison (R171): flags, all of the destination, `pc`. -/
def vexDone (s : State) (o : VexOps) (len : Nat) (r : Bool) (mx : BitVec 32) : State :=
  (((s.afterRead o.t.rm).setMxcsr mx).setVreg (destVec (vexBits o.vex) o.t)
    (vexValue (s.vreg (vexSrc1 o)) r)).advance len

/-- The comparison once B is read (R171; the operands compared are src1 and src2, 90_conflicts.md C2). -/
def vexCompare (s : State) (o : VexOps) (imm : BitVec 8) (len : Nat) (b : Word) : Result :=
  match compareOp (elem0 (s.vreg (vexSrc1 o))) b (predicateOf .vex imm) false s.osxmmexcpt s.mxcsr with
  | .done r mx => .next (vexDone s o len r mx)
  | .raises e mx => raise e (s.setMxcsr mx)

/-- The VEX form (R171). -/
def runVex (o : VexOps) (imm : BitVec 8) (s : State) : Result :=
  s.checked .vex true imm
    (match vexB s o (Form.vex o imm).length with
      | .fault e => raise e s
      | .value b => vexCompare s o imm (Form.vex o imm).length b)

/-- `VCMPSD` by the two-byte VEX prefix (R76, R171). -/
def execVcmpsdVex2 (p : Prefixes) (vex : Vex2) (t : ModRM) (imm : BitVec 8) (s : State) : Result :=
  runVex ⟨p, .two vex, t⟩ imm s

/-- `VCMPSD` by the three-byte VEX prefix (R77, R171). -/
def execVcmpsdVex3 (p : Prefixes) (vex : Vex3) (t : ModRM) (imm : BitVec 8) (s : State) : Result :=
  runVex ⟨p, .three vex, t⟩ imm s

end Sys2Proof.Machine
end

