-- ==== Sys2Proof/Machine/Evex.lean ====
section
/-! DEFINITION. The EVEX form, VCMPSD k1 with write mask k2, zmm1, zmm2/m64 with sae, imm8 (43_vcmpsd_evex.md R180
to R186). -/

namespace Sys2Proof.Machine

/-- The boolean as the EVEX form writes it: bit 0, every other bit 0 (R181, 90_conflicts.md C3). -/
def boolMask (r : Bool) : MaskReg := if r then 1 else 0

/-- `sae`: `b = 1` with a register B (R183). -/
def evexSae (o : EvexOps) : Bool := o.evex.bc && !isMem o.t.rm

/-- `b = 1` with a memory B asks for a broadcast that does not exist: #UD (30_encoding.md R89). -/
def evexFieldsOk (o : EvexOps) : Bool := !(o.evex.bc && isMem o.t.rm)

/-- The write-mask bit: 1 without a write mask, else bit 0 of `k[aaa]` (R182, 10_state.md R24). -/
def evexMaskBit (s : State) (o : EvexOps) : Bool :=
  if o.evex.aaa = 0#3 then true else (s.kreg o.evex.aaa).testBit 0

/-- The state after the destination mask register is written (R181). -/
def evexWritten (s : State) (o : EvexOps) (len : Nat) (m : MaskReg) : State := (s.setKreg o.t.reg m).advance len

/-- The state after an EVEX comparison (R181): flags, all of the destination, `pc`. -/
def evexDone (s : State) (o : EvexOps) (len : Nat) (r : Bool) (mx : BitVec 32) : State :=
  evexWritten ((s.afterRead o.t.rm).setMxcsr mx) o len (boolMask r)

/-- The comparison once B is read (R181; the operands compared are src1 and src2, 90_conflicts.md C2). -/
def evexCompare (s : State) (o : EvexOps) (imm : BitVec 8) (len : Nat) (b : Word) : Result :=
  match compareOp (elem0 (s.vreg (evexSrc1 o.evex))) b (predicateOf .evex imm) (evexSae o) s.osxmmexcpt s.mxcsr with
  | .done r mx => .next (evexDone s o len r mx)
  | .raises e mx => raise e (s.setMxcsr mx)

/-- Whether a masked-off memory form calls `MemRead` (R184, log 15). -/
def maskedLoadTaken (s : State) : Bool :=
  match s.params.maskedLoadFaults with
  | .suppressed => false
  | .taken => true
  | .either => Config.maskedLoadTaken s.draws

/-- The free value of R184 has been drawn, if one was asked for. -/
def State.drawn (s : State) : State :=
  if s.params.maskedLoadFaults = .either then { s with draws := s.draws + 1 } else s

/-- The write mask's bit is 0: the destination becomes 0 and no comparison is made (R182); a memory form may read and
may fault (R184). -/
def evexMaskedOff (s : State) (o : EvexOps) (len : Nat) : Result :=
  match o.t.rm with
  | .reg _ => .next (evexWritten s o len 0)
  | .mem mf =>
    if maskedLoadTaken s then
      match readMem s .evex o.pfx (evexBits o.evex) len mf with
      | .fault e => raise e s
      | .value _ => .next (evexWritten s.drawn.answered o len 0)
    else .next (evexWritten s.drawn o len 0)

/-- The EVEX form (R181). -/
def runEvex (o : EvexOps) (imm : BitVec 8) (s : State) : Result :=
  s.checked .evex (evexFieldsOk o) imm
    (if evexMaskBit s o then
      match evexB s o (Form.evex o imm).length with
      | .fault e => raise e s
      | .value b => evexCompare s o imm (Form.evex o imm).length b
    else evexMaskedOff s o (Form.evex o imm).length)

/-- `VCMPSD` by the EVEX prefix (R181). -/
def execVcmpsdEvex (p : Prefixes) (evex : Evex) (t : ModRM) (imm : BitVec 8) (s : State) : Result :=
  runEvex ⟨p, evex, t⟩ imm s

end Sys2Proof.Machine
end

