-- ==== Sys2Proof/Machine/EvexPseudo.lean ====
section
/-! DEFINITION. The pseudo-mnemonics of the EVEX form (30_encoding.md R104): each is the form with a fixed imm8. -/

namespace Sys2Proof.Machine

/-- `VCMPEQSD`: `VCMPSD dest, src1, src2, 00h` (R104). -/
def execVcmpeqsdEvex (o : EvexOps) (s : State) : Result := runEvex o 0x00#8 s

/-- `VCMPLTSD`: `VCMPSD dest, src1, src2, 01h` (R104). -/
def execVcmpltsdEvex (o : EvexOps) (s : State) : Result := runEvex o 0x01#8 s

/-- `VCMPLESD`: `VCMPSD dest, src1, src2, 02h` (R104). -/
def execVcmplesdEvex (o : EvexOps) (s : State) : Result := runEvex o 0x02#8 s

/-- `VCMPUNORDSD`: `VCMPSD dest, src1, src2, 03h` (R104). -/
def execVcmpunordsdEvex (o : EvexOps) (s : State) : Result := runEvex o 0x03#8 s

/-- `VCMPNEQSD`: `VCMPSD dest, src1, src2, 04h` (R104). -/
def execVcmpneqsdEvex (o : EvexOps) (s : State) : Result := runEvex o 0x04#8 s

/-- `VCMPNLTSD`: `VCMPSD dest, src1, src2, 05h` (R104). -/
def execVcmpnltsdEvex (o : EvexOps) (s : State) : Result := runEvex o 0x05#8 s

/-- `VCMPNLESD`: `VCMPSD dest, src1, src2, 06h` (R104). -/
def execVcmpnlesdEvex (o : EvexOps) (s : State) : Result := runEvex o 0x06#8 s

/-- `VCMPORDSD`: `VCMPSD dest, src1, src2, 07h` (R104). -/
def execVcmpordsdEvex (o : EvexOps) (s : State) : Result := runEvex o 0x07#8 s

/-- `VCMPEQ_UQSD`: `VCMPSD dest, src1, src2, 08h` (R104). -/
def execVcmpeq_uqsdEvex (o : EvexOps) (s : State) : Result := runEvex o 0x08#8 s

/-- `VCMPNGESD`: `VCMPSD dest, src1, src2, 09h` (R104). -/
def execVcmpngesdEvex (o : EvexOps) (s : State) : Result := runEvex o 0x09#8 s

/-- `VCMPNGTSD`: `VCMPSD dest, src1, src2, 0Ah` (R104). -/
def execVcmpngtsdEvex (o : EvexOps) (s : State) : Result := runEvex o 0x0A#8 s

/-- `VCMPFALSESD`: `VCMPSD dest, src1, src2, 0Bh` (R104). -/
def execVcmpfalsesdEvex (o : EvexOps) (s : State) : Result := runEvex o 0x0B#8 s

/-- `VCMPNEQ_OQSD`: `VCMPSD dest, src1, src2, 0Ch` (R104). -/
def execVcmpneq_oqsdEvex (o : EvexOps) (s : State) : Result := runEvex o 0x0C#8 s

/-- `VCMPGESD`: `VCMPSD dest, src1, src2, 0Dh` (R104). -/
def execVcmpgesdEvex (o : EvexOps) (s : State) : Result := runEvex o 0x0D#8 s

/-- `VCMPGTSD`: `VCMPSD dest, src1, src2, 0Eh` (R104). -/
def execVcmpgtsdEvex (o : EvexOps) (s : State) : Result := runEvex o 0x0E#8 s

/-- `VCMPTRUESD`: `VCMPSD dest, src1, src2, 0Fh` (R104). -/
def execVcmptruesdEvex (o : EvexOps) (s : State) : Result := runEvex o 0x0F#8 s

/-- `VCMPEQ_OSSD`: `VCMPSD dest, src1, src2, 10h` (R104). -/
def execVcmpeq_ossdEvex (o : EvexOps) (s : State) : Result := runEvex o 0x10#8 s

/-- `VCMPLT_OQSD`: `VCMPSD dest, src1, src2, 11h` (R104). -/
def execVcmplt_oqsdEvex (o : EvexOps) (s : State) : Result := runEvex o 0x11#8 s

/-- `VCMPLE_OQSD`: `VCMPSD dest, src1, src2, 12h` (R104). -/
def execVcmple_oqsdEvex (o : EvexOps) (s : State) : Result := runEvex o 0x12#8 s

/-- `VCMPUNORD_SSD`: `VCMPSD dest, src1, src2, 13h` (R104). -/
def execVcmpunord_ssdEvex (o : EvexOps) (s : State) : Result := runEvex o 0x13#8 s

/-- `VCMPNEQ_USSD`: `VCMPSD dest, src1, src2, 14h` (R104). -/
def execVcmpneq_ussdEvex (o : EvexOps) (s : State) : Result := runEvex o 0x14#8 s

/-- `VCMPNLT_UQSD`: `VCMPSD dest, src1, src2, 15h` (R104). -/
def execVcmpnlt_uqsdEvex (o : EvexOps) (s : State) : Result := runEvex o 0x15#8 s

/-- `VCMPNLE_UQSD`: `VCMPSD dest, src1, src2, 16h` (R104). -/
def execVcmpnle_uqsdEvex (o : EvexOps) (s : State) : Result := runEvex o 0x16#8 s

/-- `VCMPORD_SSD`: `VCMPSD dest, src1, src2, 17h` (R104) (the source spells it `VCMPORD_SPDSD`, R105). -/
def execVcmpord_ssdEvex (o : EvexOps) (s : State) : Result := runEvex o 0x17#8 s

/-- `VCMPEQ_USSD`: `VCMPSD dest, src1, src2, 18h` (R104). -/
def execVcmpeq_ussdEvex (o : EvexOps) (s : State) : Result := runEvex o 0x18#8 s

/-- `VCMPNGE_UQSD`: `VCMPSD dest, src1, src2, 19h` (R104). -/
def execVcmpnge_uqsdEvex (o : EvexOps) (s : State) : Result := runEvex o 0x19#8 s

/-- `VCMPNGT_UQSD`: `VCMPSD dest, src1, src2, 1Ah` (R104). -/
def execVcmpngt_uqsdEvex (o : EvexOps) (s : State) : Result := runEvex o 0x1A#8 s

/-- `VCMPFALSE_OSSD`: `VCMPSD dest, src1, src2, 1Bh` (R104). -/
def execVcmpfalse_ossdEvex (o : EvexOps) (s : State) : Result := runEvex o 0x1B#8 s

/-- `VCMPNEQ_OSSD`: `VCMPSD dest, src1, src2, 1Ch` (R104). -/
def execVcmpneq_ossdEvex (o : EvexOps) (s : State) : Result := runEvex o 0x1C#8 s

/-- `VCMPGE_OQSD`: `VCMPSD dest, src1, src2, 1Dh` (R104). -/
def execVcmpge_oqsdEvex (o : EvexOps) (s : State) : Result := runEvex o 0x1D#8 s

/-- `VCMPGT_OQSD`: `VCMPSD dest, src1, src2, 1Eh` (R104). -/
def execVcmpgt_oqsdEvex (o : EvexOps) (s : State) : Result := runEvex o 0x1E#8 s

/-- `VCMPTRUE_USSD`: `VCMPSD dest, src1, src2, 1Fh` (R104). -/
def execVcmptrue_ussdEvex (o : EvexOps) (s : State) : Result := runEvex o 0x1F#8 s

end Sys2Proof.Machine
end

