-- ==== Sys2Proof/Machine/LegacyPseudo.lean ====
section
/-! DEFINITION. The pseudo-mnemonics of the legacy form (30_encoding.md R103): each is the form with a fixed imm8. -/

namespace Sys2Proof.Machine

/-- `CMPEQSD`: `CMPSD src1, src2, 00h` (R103). -/
def execCmpeqsd (o : LegacyOps) (s : State) : Result := runLegacy o 0x00#8 s

/-- `CMPLTSD`: `CMPSD src1, src2, 01h` (R103). -/
def execCmpltsd (o : LegacyOps) (s : State) : Result := runLegacy o 0x01#8 s

/-- `CMPLESD`: `CMPSD src1, src2, 02h` (R103). -/
def execCmplesd (o : LegacyOps) (s : State) : Result := runLegacy o 0x02#8 s

/-- `CMPUNORDSD`: `CMPSD src1, src2, 03h` (R103). -/
def execCmpunordsd (o : LegacyOps) (s : State) : Result := runLegacy o 0x03#8 s

/-- `CMPNEQSD`: `CMPSD src1, src2, 04h` (R103). -/
def execCmpneqsd (o : LegacyOps) (s : State) : Result := runLegacy o 0x04#8 s

/-- `CMPNLTSD`: `CMPSD src1, src2, 05h` (R103). -/
def execCmpnltsd (o : LegacyOps) (s : State) : Result := runLegacy o 0x05#8 s

/-- `CMPNLESD`: `CMPSD src1, src2, 06h` (R103). -/
def execCmpnlesd (o : LegacyOps) (s : State) : Result := runLegacy o 0x06#8 s

/-- `CMPORDSD`: `CMPSD src1, src2, 07h` (R103). -/
def execCmpordsd (o : LegacyOps) (s : State) : Result := runLegacy o 0x07#8 s

end Sys2Proof.Machine
end

