-- ==== Sys2Proof/Machine/Dispatch.lean ====
section
/-! DEFINITION. The meaning of every instruction, one arm per constructor. -/

namespace Sys2Proof.Machine

def exec (i : Instr) (s : State) : Host.Outcome State Fault Refusal :=
  match i with
  | .cmpsd p t imm => Sys2Proof.Machine.execCmpsd p t imm s
  | .cmpsdRex p rex t imm => Sys2Proof.Machine.execCmpsdRex p rex t imm s
  | .vcmpsdVex2 p vex t imm => Sys2Proof.Machine.execVcmpsdVex2 p vex t imm s
  | .vcmpsdVex3 p vex t imm => Sys2Proof.Machine.execVcmpsdVex3 p vex t imm s
  | .vcmpsdEvex p evex t imm => Sys2Proof.Machine.execVcmpsdEvex p evex t imm s
  | .cmpeqsd o => Sys2Proof.Machine.execCmpeqsd o s
  | .cmpltsd o => Sys2Proof.Machine.execCmpltsd o s
  | .cmplesd o => Sys2Proof.Machine.execCmplesd o s
  | .cmpunordsd o => Sys2Proof.Machine.execCmpunordsd o s
  | .cmpneqsd o => Sys2Proof.Machine.execCmpneqsd o s
  | .cmpnltsd o => Sys2Proof.Machine.execCmpnltsd o s
  | .cmpnlesd o => Sys2Proof.Machine.execCmpnlesd o s
  | .cmpordsd o => Sys2Proof.Machine.execCmpordsd o s
  | .vcmpeqsdVex o => Sys2Proof.Machine.execVcmpeqsdVex o s
  | .vcmpltsdVex o => Sys2Proof.Machine.execVcmpltsdVex o s
  | .vcmplesdVex o => Sys2Proof.Machine.execVcmplesdVex o s
  | .vcmpunordsdVex o => Sys2Proof.Machine.execVcmpunordsdVex o s
  | .vcmpneqsdVex o => Sys2Proof.Machine.execVcmpneqsdVex o s
  | .vcmpnltsdVex o => Sys2Proof.Machine.execVcmpnltsdVex o s
  | .vcmpnlesdVex o => Sys2Proof.Machine.execVcmpnlesdVex o s
  | .vcmpordsdVex o => Sys2Proof.Machine.execVcmpordsdVex o s
  | .vcmpeq_uqsdVex o => Sys2Proof.Machine.execVcmpeq_uqsdVex o s
  | .vcmpngesdVex o => Sys2Proof.Machine.execVcmpngesdVex o s
  | .vcmpngtsdVex o => Sys2Proof.Machine.execVcmpngtsdVex o s
  | .vcmpfalsesdVex o => Sys2Proof.Machine.execVcmpfalsesdVex o s
  | .vcmpneq_oqsdVex o => Sys2Proof.Machine.execVcmpneq_oqsdVex o s
  | .vcmpgesdVex o => Sys2Proof.Machine.execVcmpgesdVex o s
  | .vcmpgtsdVex o => Sys2Proof.Machine.execVcmpgtsdVex o s
  | .vcmptruesdVex o => Sys2Proof.Machine.execVcmptruesdVex o s
  | .vcmpeq_ossdVex o => Sys2Proof.Machine.execVcmpeq_ossdVex o s
  | .vcmplt_oqsdVex o => Sys2Proof.Machine.execVcmplt_oqsdVex o s
  | .vcmple_oqsdVex o => Sys2Proof.Machine.execVcmple_oqsdVex o s
  | .vcmpunord_ssdVex o => Sys2Proof.Machine.execVcmpunord_ssdVex o s
  | .vcmpneq_ussdVex o => Sys2Proof.Machine.execVcmpneq_ussdVex o s
  | .vcmpnlt_uqsdVex o => Sys2Proof.Machine.execVcmpnlt_uqsdVex o s
  | .vcmpnle_uqsdVex o => Sys2Proof.Machine.execVcmpnle_uqsdVex o s
  | .vcmpord_ssdVex o => Sys2Proof.Machine.execVcmpord_ssdVex o s
  | .vcmpeq_ussdVex o => Sys2Proof.Machine.execVcmpeq_ussdVex o s
  | .vcmpnge_uqsdVex o => Sys2Proof.Machine.execVcmpnge_uqsdVex o s
  | .vcmpngt_uqsdVex o => Sys2Proof.Machine.execVcmpngt_uqsdVex o s
  | .vcmpfalse_ossdVex o => Sys2Proof.Machine.execVcmpfalse_ossdVex o s
  | .vcmpneq_ossdVex o => Sys2Proof.Machine.execVcmpneq_ossdVex o s
  | .vcmpge_oqsdVex o => Sys2Proof.Machine.execVcmpge_oqsdVex o s
  | .vcmpgt_oqsdVex o => Sys2Proof.Machine.execVcmpgt_oqsdVex o s
  | .vcmptrue_ussdVex o => Sys2Proof.Machine.execVcmptrue_ussdVex o s
  | .vcmpeqsdEvex o => Sys2Proof.Machine.execVcmpeqsdEvex o s
  | .vcmpltsdEvex o => Sys2Proof.Machine.execVcmpltsdEvex o s
  | .vcmplesdEvex o => Sys2Proof.Machine.execVcmplesdEvex o s
  | .vcmpunordsdEvex o => Sys2Proof.Machine.execVcmpunordsdEvex o s
  | .vcmpneqsdEvex o => Sys2Proof.Machine.execVcmpneqsdEvex o s
  | .vcmpnltsdEvex o => Sys2Proof.Machine.execVcmpnltsdEvex o s
  | .vcmpnlesdEvex o => Sys2Proof.Machine.execVcmpnlesdEvex o s
  | .vcmpordsdEvex o => Sys2Proof.Machine.execVcmpordsdEvex o s
  | .vcmpeq_uqsdEvex o => Sys2Proof.Machine.execVcmpeq_uqsdEvex o s
  | .vcmpngesdEvex o => Sys2Proof.Machine.execVcmpngesdEvex o s
  | .vcmpngtsdEvex o => Sys2Proof.Machine.execVcmpngtsdEvex o s
  | .vcmpfalsesdEvex o => Sys2Proof.Machine.execVcmpfalsesdEvex o s
  | .vcmpneq_oqsdEvex o => Sys2Proof.Machine.execVcmpneq_oqsdEvex o s
  | .vcmpgesdEvex o => Sys2Proof.Machine.execVcmpgesdEvex o s
  | .vcmpgtsdEvex o => Sys2Proof.Machine.execVcmpgtsdEvex o s
  | .vcmptruesdEvex o => Sys2Proof.Machine.execVcmptruesdEvex o s
  | .vcmpeq_ossdEvex o => Sys2Proof.Machine.execVcmpeq_ossdEvex o s
  | .vcmplt_oqsdEvex o => Sys2Proof.Machine.execVcmplt_oqsdEvex o s
  | .vcmple_oqsdEvex o => Sys2Proof.Machine.execVcmple_oqsdEvex o s
  | .vcmpunord_ssdEvex o => Sys2Proof.Machine.execVcmpunord_ssdEvex o s
  | .vcmpneq_ussdEvex o => Sys2Proof.Machine.execVcmpneq_ussdEvex o s
  | .vcmpnlt_uqsdEvex o => Sys2Proof.Machine.execVcmpnlt_uqsdEvex o s
  | .vcmpnle_uqsdEvex o => Sys2Proof.Machine.execVcmpnle_uqsdEvex o s
  | .vcmpord_ssdEvex o => Sys2Proof.Machine.execVcmpord_ssdEvex o s
  | .vcmpeq_ussdEvex o => Sys2Proof.Machine.execVcmpeq_ussdEvex o s
  | .vcmpnge_uqsdEvex o => Sys2Proof.Machine.execVcmpnge_uqsdEvex o s
  | .vcmpngt_uqsdEvex o => Sys2Proof.Machine.execVcmpngt_uqsdEvex o s
  | .vcmpfalse_ossdEvex o => Sys2Proof.Machine.execVcmpfalse_ossdEvex o s
  | .vcmpneq_ossdEvex o => Sys2Proof.Machine.execVcmpneq_ossdEvex o s
  | .vcmpge_oqsdEvex o => Sys2Proof.Machine.execVcmpge_oqsdEvex o s
  | .vcmpgt_oqsdEvex o => Sys2Proof.Machine.execVcmpgt_oqsdEvex o s
  | .vcmptrue_ussdEvex o => Sys2Proof.Machine.execVcmptrue_ussdEvex o s

end Sys2Proof.Machine
end

