-- ==== Sys2Proof/Machine/Step.lean ====
section
/-! DEFINITION. One step: fetch, decode, execute (60_exceptions.md R211). -/

namespace Sys2Proof.Machine

/-- The bytes end inside the instruction: a fetch fault (R211 step 1), the end of the program text
(70_reset_and_hazards.md R247), or more than 15 bytes (30_encoding.md R95). -/
def stepShort (s : State) (stop : FetchStop) : Result :=
  match stop with
  | .fault f => raise f.exception s
  | .textEnd => .refused .ranOffProgram
  | .tooLong => raise .gp s

/-- The outcome of bytes that are no admitted instruction (R100). -/
def stepReject (s : State) (stop : FetchStop) (r : Reject) : Result :=
  match r with
  | .needMore => stepShort s stop
  | .undefinedOpcode => raise .ud s
  | .notInScope => .refused .notInScope
  | .prefixCombination => .refused .prefixCombination
  | .zeroingMarker => .refused .zeroingMarker
  | .highRegister => .refused .highRegister

/-- The outcome of what the decoder answers. -/
def stepDecoded (s : State) (stop : FetchStop) : Decoded → Result
  | .instr i _ => exec i s
  | .reject r => stepReject s stop r

/-- One step of the machine. -/
def step (s : State) : Host.Outcome State Fault Refusal := stepDecoded s s.fetch.2 (decode s.mode s.fetch.1)

/-- The launch of a program that begins with an opcode table row's bits (log 6). -/
def State.withFetchWord (s : State) (nbits w : Nat) : State := s.withBytes (tableBytes nbits w)

end Sys2Proof.Machine
end

