-- ==== Sys2Proof/WellFormed.lean ====
section
/-! DEFINITION. Which instructions have an encoding that a mode admits (30_encoding.md R71, R75, R78, R80 to R87,
R92). Reserved `imm8` bits are no part of it: parameter `IMM_RESERVED` says what they do (R98). -/

namespace Sys2Proof

/-- The operand is encoded with 16-bit addressing. -/
def MemForm.is16 : MemForm → Bool
  | .direct16 _ => true
  | .based16 _ _ => true
  | _ => false

/-- The memory operand has an encoding of its own: `r/m = 100b` calls for a SIB byte, and the rows with `mod = 00b`
that hold a displacement alone belong to the `direct` and `NoBase` forms (R82, R85, R87). -/
def MemForm.wellFormed : MemForm → Bool
  | .direct _ => true
  | .based rm d => rm != 4#3 && !(d == .none && rm == 5#3)
  | .sib _ _ b d => !(d == .none && b == 5#3)
  | .sibNoBase _ _ _ => true
  | .direct16 _ => true
  | .based16 rm d => !(d == .none && rm == 6#3)

/-- The operand in `ModRM.r/m` fits the address size (R81, R87). -/
def RegMem.wellFormed (a16 : Bool) : RegMem → Bool
  | .reg _ => true
  | .mem f => f.wellFormed && f.is16 == a16

/-- The VEX fields name no register above 7 in `Mode32` (R78). -/
def VexPrefix.lowOnly : VexPrefix → Bool
  | .two v => !v.r && !v.vvvv.getLsbD 3
  | .three v => !v.r && !v.x && !v.b && !v.vvvv.getLsbD 3

/-- The EVEX fields name no register above 7 in `Mode32` (R92). -/
def Evex.lowOnly (e : Evex) : Bool := !e.x && !e.b && !e.vHi && !e.vvvv.getLsbD 3

/-- The form has an encoding in the mode. No form has one in `Mode16` (R71); REX exists in `Mode64` only (R75). -/
def Form.wellFormed (m : Mode) : Form → Bool
  | .legacy o _ => m != .mode16 && (o.rex.isNone || m == .mode64) && o.t.rm.wellFormed (a16Of m o.pfx.a67)
  | .vex o _ => m != .mode16 && (o.vex.lowOnly || m == .mode64) && o.t.rm.wellFormed (a16Of m o.pfx.a67)
  | .evex o _ => m != .mode16 && (o.evex.lowOnly || m == .mode64) && o.t.rm.wellFormed (a16Of m o.pfx.a67)

/-- The instruction has an encoding in the mode. -/
def Instr.wellFormed (m : Mode) (i : Instr) : Bool := i.form.wellFormed m

end Sys2Proof
end

