-- ==== Sys2Proof/Safety.lean ====
section
/-! DEFINITION. What a sound state is, what it takes for a form to run, and how a run ends (10_state.md R20, R23, R25,
R29; 70_reset_and_hazards.md R243, R247). -/

namespace Sys2Proof.Machine

/-- The invariant of the machine: memory is in canonical form, the bits of registers that the configuration does not
have are 0, `pc` fits the mode, and the reserved bits of MXCSR are 0. -/
structure State.Inv (s : State) : Prop where
  mem : Memory.wf s.mem = true
  params : s.params.legal = true
  vec : ∀ (n : BitVec 5) (j : Fin 8), s.params.vlmax.elements ≤ j.val → (s.vreg n)[j] = 0#64
  mask : ∀ n : BitVec 3, s.kreg n < 2 ^ s.params.maxKl
  pc : Mode.truncPc s.mode s.pc = s.pc
  mxcsr : s.mxcsr.extractLsb' 16 16 = 0#16

/-- The launch premises of R243 for a form: it is an instruction here, and the device is available. -/
def State.ready (s : State) (f : FormKind) : Prop := s.enabled f = true ∧ s.ts = false

/-- The reserved bits of `imm8` do not stop the instruction (30_encoding.md R98). -/
def State.immOk (s : State) (f : FormKind) (imm : BitVec 8) : Prop := s.refusesImm f imm = false

/-- `pc = base + n`: the run has ended (R247). -/
def State.atEnd (s : State) : Prop := ∃ t, s.text = some t ∧ s.pc.toNat = t.base.toNat + t.len

/-- `n` steps that all answer a next state lead from `s` to `t` (R247: a run of `n` instructions has `n` steps). -/
def Runs : Nat → State → State → Prop
  | 0, s, t => s = t
  | n + 1, s, t => ∃ u, step s = .next u ∧ Runs n u t

/-- `pc = base`: a launched program is at its start (R247). -/
def State.atStart (s : State) : Prop := ∃ p, s.text = some p ∧ s.pc = p.base

/-- A successful run: it starts with `pc = base` and ends with `pc = base + n` after a `Next` (R247). -/
def Successful (s t : State) : Prop := s.atStart ∧ ∃ n, Runs (n + 1) s t ∧ t.atEnd

/-- What no instruction writes (10_state.md R27, R31, R33; 20_memory.md R51): every field but `pc`, the vector and mask
registers, MXCSR, and the model's two oracle positions. -/
structure SameRest (s t : State) : Prop where
  params : t.params = s.params
  mode : t.mode = s.mode
  x : t.x = s.x
  segBase : t.segBase = s.segBase
  cr0 : t.cr0 = s.cr0
  cr4 : t.cr4 = s.cr4
  xcr0 : t.xcr0 = s.xcr0
  rflags : t.rflags = s.rflags
  cpl : t.cpl = s.cpl
  mem : ∀ a, Memory.read t.mem a = Memory.read s.mem a
  memList : t.mem = s.mem
  fetchFaults : t.fetchFaults = s.fetchFaults
  text : t.text = s.text

/-- MXCSR with the flags the two conditions set (40_predicates.md R140). -/
def withFlags (mx : BitVec 32) (ie de : Bool) : BitVec 32 :=
  mx ||| (if ie then 1#32 else 0#32) ||| (if de then 2#32 else 0#32)

end Sys2Proof.Machine
end

