-- ==== Sys2Proof/Certificates/Slice0/Obligations.lean ====
section
/-! DEFINITION. The statements for the provers. Each docstring names the rules of spec/ it formalises; a clause that
rests on the model's own choice names its log entry. -/

open Sys2Proof Sys2Proof.Machine

/-! ## Reset and the invariant -/

/-- 10_state.md R34: the values after reset that the spec gives. -/
def Obligations.ResetHoldsTheSpecValues : Prop :=
  State.reset.mode = .mode16 ∧ State.reset.mxcsr = 0x1F80#32 ∧
    (∀ n, State.reset.vreg n = Vector.replicate 8 0#64) ∧ (∀ n, State.reset.kreg n = 0) ∧
    State.reset.em = false ∧ State.reset.ts = false ∧ State.reset.cr4 = 0#64 ∧ State.reset.xcr0 = 1#64

/-- R34, R243: after reset no form is executable, in whatever mode, until software enables it. -/
def Obligations.ResetEnablesNoForm : Prop :=
  ∀ (i : Instr) (m : Mode),
    exec i { State.reset with mode := m } = raise .ud { State.reset with mode := m }

/-- The reset state meets the invariant of State, and a launch of a program at an address that fits the mode keeps it
(70_reset_and_hazards.md R247). -/
def Obligations.ResetMeetsInvariant : Prop :=
  State.reset.Inv ∧
  ∀ (s : State) (base : BitVec 64) (bs : List Byte), s.Inv → Mode.truncPc s.mode base = base →
    (s.withProgram base bs).Inv

/-- Every step keeps the invariant: memory canonical, absent register bits 0, `pc` within the mode's width, MXCSR's
reserved bits 0 (R20, R23, R25, R29). -/
def Obligations.StepKeepsInvariant : Prop := ∀ s t : State, s.Inv → step s = .next t → t.Inv

/-! ## Encoding -/

/-- Decoding the bytes of a well-formed instruction, whatever follows them, gives its encoded form back; the five
encodings give themselves (30_encoding.md R72 to R93, R103, R104; pseudo-mnemonics: log 1). -/
def Obligations.DecodeEncodeRoundTrip : Prop :=
  (∀ (m : Mode) (i : Instr) (rest : List Byte), i.wellFormed m = true →
    decode m (encode i ++ rest) = .instr i.core rest) ∧
  (∀ p t imm, (Instr.cmpsd p t imm).core = .cmpsd p t imm) ∧
  (∀ p r t imm, (Instr.cmpsdRex p r t imm).core = .cmpsdRex p r t imm) ∧
  (∀ p v t imm, (Instr.vcmpsdVex2 p v t imm).core = .vcmpsdVex2 p v t imm) ∧
  (∀ p v t imm, (Instr.vcmpsdVex3 p v t imm).core = .vcmpsdVex3 p v t imm) ∧
  (∀ p e t imm, (Instr.vcmpsdEvex p e t imm).core = .vcmpsdEvex p e t imm)

/-- Whatever the decoder answers is a well-formed encoding row of R95's length. -/
def Obligations.DecodedIsWellFormed : Prop :=
  ∀ (m : Mode) (bs : List Byte) (i : Instr) (rest : List Byte), decode m bs = .instr i rest →
    i.wellFormed m = true ∧ i.core = i ∧ bs.length = i.length + rest.length

/-- The decoder looks at no byte past the instruction, and its rejections other than "more bytes" stand whatever
follows (R93; 60_exceptions.md R211 step 1). -/
def Obligations.DecodeReadsOnlyItsBytes : Prop :=
  (∀ (m : Mode) (bs more : List Byte) (i : Instr) (rest : List Byte), decode m bs = .instr i rest →
    decode m (bs ++ more) = .instr i (rest ++ more)) ∧
  (∀ (m : Mode) (bs more : List Byte) (r : Reject), decode m bs = .reject r → r ≠ .needMore →
    decode m (bs ++ more) = .reject r)

/-- R95: the encoder's bytes are as many as the length formula says; 5 is the shortest and 14 the longest, and both
are met. -/
def Obligations.LengthBetweenFiveAndFourteen : Prop :=
  (∀ i : Instr, (encode i).length = i.length) ∧
  (∀ (m : Mode) (i : Instr), i.wellFormed m = true → 5 ≤ i.length ∧ i.length ≤ 14) ∧
  (∃ (m : Mode) (i : Instr), i.wellFormed m = true ∧ i.length = 5) ∧
  (∃ (m : Mode) (i : Instr), i.wellFormed m = true ∧ i.length = 14)

/-- R73, legacy form: the prefix bytes before the optional REX, in any order. Without `F2` it is another instruction;
with LOCK it is #UD; `F2` once, at most one segment override and one `67` are admitted; all else is refused. R75: a REX
byte followed by another prefix is refused, whatever follows and whatever stands before it (beside a LOCK too: log 25). -/
def Obligations.LegacyPrefixRule : Prop :=
  let prefixBytes : List Byte :=
    [0xF2#8, 0xF3#8, 0x66#8, 0xF0#8, 0x67#8, 0x26#8, 0x2E#8, 0x36#8, 0x3E#8, 0x64#8, 0x65#8]
  (∀ (m : Mode) (o : LegacyOps) (imm : BitVec 8) (pre rest : List Byte),
    (Form.legacy o imm).wellFormed m = true → (∀ b ∈ pre, b ∈ prefixBytes) →
    o.pfx.a67 = decide (0x67#8 ∈ pre) → o.pfx.seg = (pre.filterMap Seg.ofByte).head? →
    decode m (pre ++ ((Form.legacy o imm).body ++ rest)) =
      if 0xF2#8 ∉ pre then .reject .notInScope
      else if 0xF0#8 ∈ pre then .reject .undefinedOpcode
      else if pre.count 0xF2#8 = 1 ∧ 0xF3#8 ∉ pre ∧ 0x66#8 ∉ pre ∧ pre.count 0x67#8 ≤ 1 ∧
          (pre.filterMap Seg.ofByte).length ≤ 1 then .instr (Form.legacy o imm).instr rest
      else .reject .prefixCombination) ∧
  (∀ (pre rest : List Byte) (r : Rex) (c : Byte), (∀ b ∈ pre, b ∈ prefixBytes) →
    (c ∈ prefixBytes ∨ ∃ r' : Rex, c = r'.byte) →
    decode .mode64 (pre ++ r.byte :: c :: rest) = .reject .prefixCombination)

/-- R73, VEX and EVEX forms: any of `66`, `F2`, `F3`, `F0`, or in Mode64 a REX byte, before the VEX or EVEX prefix is
#UD; at most one segment override and one `67` are admitted (more are refused: log 18). -/
def Obligations.VexPrefixRule : Prop :=
  ∀ (m : Mode) (f : Form) (pre rest : List Byte), f.mandatory = [] → f.wellFormed m = true →
    (∀ b ∈ pre, b ∈ [0xF2#8, 0xF3#8, 0x66#8, 0xF0#8, 0x67#8, 0x26#8, 0x2E#8, 0x36#8, 0x3E#8, 0x64#8, 0x65#8]) →
    f.pfx.a67 = decide (0x67#8 ∈ pre) → f.pfx.seg = (pre.filterMap Seg.ofByte).head? →
    (decode m (pre ++ (f.body ++ rest)) =
      if 0xF2#8 ∈ pre ∨ 0xF3#8 ∈ pre ∨ 0x66#8 ∈ pre ∨ 0xF0#8 ∈ pre then .reject .undefinedOpcode
      else if pre.count 0x67#8 ≤ 1 ∧ (pre.filterMap Seg.ofByte).length ≤ 1 then .instr f.instr rest
      else .reject .prefixCombination) ∧
    (m = .mode64 → ∀ r : Rex, decode m (pre ++ (r.byte :: (f.body ++ rest))) = .reject .undefinedOpcode)

/-- R88 to R93, R100, R185: byte `62`, any three prefix bytes, any opcode byte, then an operand and `imm8`. Another map,
another `pp`, another opcode or, outside Mode64, high bits of `P0` that make `62` another instruction: not in scope.
Then the modes and fixed fields that are #UD (`W = 0`: log 16), the refusals, and the fields of the instruction. The
order of the outcomes is log 18, the recognition in Mode16 log 17. -/
def Obligations.EvexFieldRule : Prop :=
  ∀ (m : Mode) (p0 p1 p2 op : Byte) (t : ModRM) (imm : BitVec 8) (rest : List Byte),
    t.rm.wellFormed (a16Of m false) = true →
    decode m (0x62#8 :: p0 :: p1 :: p2 :: op :: (t.bytes ++ imm :: rest)) =
      if (m ≠ .mode64 ∧ p0.extractLsb' 6 2 ≠ 3#2) ∨ p0.extractLsb' 0 2 ≠ 1#2 ∨ p1.extractLsb' 0 2 ≠ 3#2 ∨
          op ≠ 0xC2#8 then .reject .notInScope
      else if m = .mode16 ∨ p0.extractLsb' 2 2 ≠ 0#2 ∨ p1.getLsbD 2 = false ∨ p1.getLsbD 7 = false ∨
          p0.getLsbD 7 = false ∨ p0.getLsbD 4 = false then .reject .undefinedOpcode
      else if p2.getLsbD 7 = true then .reject .zeroingMarker
      else if m = .mode32 ∧ (p0.getLsbD 5 = false ∨ p2.getLsbD 3 = false ∨ p1.getLsbD 6 = false) then
        .reject .highRegister
      else .instr (.vcmpsdEvex ⟨none, false⟩
        { x := !p0.getLsbD 6, b := !p0.getLsbD 5, vvvv := ~~~p1.extractLsb' 3 4, ll := p2.extractLsb' 5 2,
          bc := p2.getLsbD 4, vHi := !p2.getLsbD 3, aaa := p2.extractLsb' 0 3 } t imm) rest

/-- R76, R77, R78, R93, R100: byte `C5` or `C4`, any prefix bytes, any opcode byte, then an operand and `imm8`. Another
`mmmmm`, another `pp`, another opcode or, outside Mode64, high bits of `V1` that make the first byte another instruction:
not in scope. In Mode16 it is #UD (recognition: log 17); in Mode32 a register above 7 is refused; else these are the
fields of the instruction. -/
def Obligations.VexFieldRule : Prop :=
  (∀ (m : Mode) (v1 op : Byte) (t : ModRM) (imm : BitVec 8) (rest : List Byte),
    t.rm.wellFormed (a16Of m false) = true →
    decode m (0xC5#8 :: v1 :: op :: (t.bytes ++ imm :: rest)) =
      if (m ≠ .mode64 ∧ v1.extractLsb' 6 2 ≠ 3#2) ∨ v1.extractLsb' 0 2 ≠ 3#2 ∨ op ≠ 0xC2#8 then .reject .notInScope
      else if m = .mode16 then .reject .undefinedOpcode
      else .instr (.vcmpsdVex2 ⟨none, false⟩
        { r := !v1.getLsbD 7, vvvv := ~~~v1.extractLsb' 3 4, l := v1.getLsbD 2 } t imm) rest) ∧
  (∀ (m : Mode) (v1 v2 op : Byte) (t : ModRM) (imm : BitVec 8) (rest : List Byte),
    t.rm.wellFormed (a16Of m false) = true →
    decode m (0xC4#8 :: v1 :: v2 :: op :: (t.bytes ++ imm :: rest)) =
      if (m ≠ .mode64 ∧ v1.extractLsb' 6 2 ≠ 3#2) ∨ v1.extractLsb' 0 5 ≠ 1#5 ∨ v2.extractLsb' 0 2 ≠ 3#2 ∨
          op ≠ 0xC2#8 then .reject .notInScope
      else if m = .mode16 then .reject .undefinedOpcode
      else if m = .mode32 ∧ (v1.getLsbD 5 = false ∨ v2.getLsbD 6 = false) then .reject .highRegister
      else .instr (.vcmpsdVex3 ⟨none, false⟩
        { r := !v1.getLsbD 7, x := !v1.getLsbD 6, b := !v1.getLsbD 5, w := v2.getLsbD 7,
          vvvv := ~~~v2.extractLsb' 3 4, l := v2.getLsbD 2 } t imm) rest)

/-- Words written out by hand from the layouts: 95_test_vectors.md E1, E3, E4, E10, E11, E16, E20, E30. -/
def Obligations.WordsDecodeToTheirInstructions : Prop :=
  decode .mode64 [0xF2#8, 0x0F#8, 0xC2#8, 0xC1#8, 0x01#8] = .instr (.cmpsd ⟨none, false⟩ ⟨0#3, .reg 1#3⟩ 1#8) [] ∧
  decode .mode64 [0xF2#8, 0x45#8, 0x0F#8, 0xC2#8, 0xC1#8, 0x02#8] =
    .instr (.cmpsdRex ⟨none, false⟩ ⟨false, true, false, true⟩ ⟨0#3, .reg 1#3⟩ 2#8) [] ∧
  decode .mode64 [0xF2#8, 0x0F#8, 0xC2#8, 0x44#8, 0x24#8, 0x08#8, 0x05#8] =
    .instr (.cmpsd ⟨none, false⟩ ⟨0#3, .mem (.sib 0#2 4#3 4#3 (.d8 8#8))⟩ 5#8) [] ∧
  decode .mode64 [0xC5#8, 0xF3#8, 0xC2#8, 0xC2#8, 0x11#8] =
    .instr (.vcmpsdVex2 ⟨none, false⟩ ⟨false, 1#4, false⟩ ⟨0#3, .reg 2#3⟩ 0x11#8) [] ∧
  decode .mode64 [0xC4#8, 0xE1#8, 0x73#8, 0xC2#8, 0xC2#8, 0x11#8] =
    .instr (.vcmpsdVex3 ⟨none, false⟩ ⟨false, false, false, false, 1#4, false⟩ ⟨0#3, .reg 2#3⟩ 0x11#8) [] ∧
  decode .mode64 [0x62#8, 0xF1#8, 0xF7#8, 0x08#8, 0xC2#8, 0xCA#8, 0x01#8] =
    .instr (.vcmpsdEvex ⟨none, false⟩ ⟨false, false, 1#4, 0#2, false, false, 0#3⟩ ⟨1#3, .reg 2#3⟩ 1#8) [] ∧
  decode .mode64 [0x62#8, 0x91#8, 0x97#8, 0x00#8, 0xC2#8, 0xD9#8, 0x04#8] =
    .instr (.vcmpsdEvex ⟨none, false⟩ ⟨true, true, 13#4, 0#2, false, true, 0#3⟩ ⟨3#3, .reg 1#3⟩ 4#8) [] ∧
  decode .mode32 [0x67#8, 0xF2#8, 0x0F#8, 0xC2#8, 0x40#8, 0x02#8, 0x00#8] =
    .instr (.cmpsd ⟨none, true⟩ ⟨0#3, .mem (.based16 0#3 (.d8 2#8))⟩ 0#8) []

/-- R103: each legacy pseudo-mnemonic is the CMPSD instruction with a fixed `imm8`: it has its bytes and its
meaning. -/
def Obligations.LegacyPseudoMnemonics : Prop :=
  ∀ q ∈ [(Instr.cmpeqsd, 0x00#8), (Instr.cmpltsd, 0x01#8), (Instr.cmplesd, 0x02#8), (Instr.cmpunordsd, 0x03#8),
      (Instr.cmpneqsd, 0x04#8), (Instr.cmpnltsd, 0x05#8), (Instr.cmpnlesd, 0x06#8), (Instr.cmpordsd, 0x07#8)],
    (∀ p t, encode (q.1 ⟨p, none, t⟩) = encode (.cmpsd p t q.2) ∧
      ∀ s, exec (q.1 ⟨p, none, t⟩) s = exec (.cmpsd p t q.2) s) ∧
    (∀ p r t, encode (q.1 ⟨p, some r, t⟩) = encode (.cmpsdRex p r t q.2) ∧
      ∀ s, exec (q.1 ⟨p, some r, t⟩) s = exec (.cmpsdRex p r t q.2) s)

/-- R104, R105: each pseudo-mnemonic of the VEX and EVEX forms is VCMPSD with a fixed `imm8`; a vector-register
destination is the VEX form, a mask-register destination the EVEX form, which R104 marks as its own inference (the
constructors: log 1). -/
def Obligations.VcmpsdPseudoMnemonics : Prop :=
  (∀ q ∈ [(Instr.vcmpeqsdVex, 0x00#8), (Instr.vcmpltsdVex, 0x01#8), (Instr.vcmplesdVex, 0x02#8),
        (Instr.vcmpunordsdVex, 0x03#8), (Instr.vcmpneqsdVex, 0x04#8), (Instr.vcmpnltsdVex, 0x05#8),
        (Instr.vcmpnlesdVex, 0x06#8), (Instr.vcmpordsdVex, 0x07#8), (Instr.vcmpeq_uqsdVex, 0x08#8),
        (Instr.vcmpngesdVex, 0x09#8), (Instr.vcmpngtsdVex, 0x0A#8), (Instr.vcmpfalsesdVex, 0x0B#8),
        (Instr.vcmpneq_oqsdVex, 0x0C#8), (Instr.vcmpgesdVex, 0x0D#8), (Instr.vcmpgtsdVex, 0x0E#8),
        (Instr.vcmptruesdVex, 0x0F#8), (Instr.vcmpeq_ossdVex, 0x10#8), (Instr.vcmplt_oqsdVex, 0x11#8),
        (Instr.vcmple_oqsdVex, 0x12#8), (Instr.vcmpunord_ssdVex, 0x13#8), (Instr.vcmpneq_ussdVex, 0x14#8),
        (Instr.vcmpnlt_uqsdVex, 0x15#8), (Instr.vcmpnle_uqsdVex, 0x16#8), (Instr.vcmpord_ssdVex, 0x17#8),
        (Instr.vcmpeq_ussdVex, 0x18#8), (Instr.vcmpnge_uqsdVex, 0x19#8), (Instr.vcmpngt_uqsdVex, 0x1A#8),
        (Instr.vcmpfalse_ossdVex, 0x1B#8), (Instr.vcmpneq_ossdVex, 0x1C#8), (Instr.vcmpge_oqsdVex, 0x1D#8),
        (Instr.vcmpgt_oqsdVex, 0x1E#8), (Instr.vcmptrue_ussdVex, 0x1F#8)],
      (∀ p v t, encode (q.1 ⟨p, .two v, t⟩) = encode (.vcmpsdVex2 p v t q.2) ∧
        ∀ s, exec (q.1 ⟨p, .two v, t⟩) s = exec (.vcmpsdVex2 p v t q.2) s) ∧
      (∀ p v t, encode (q.1 ⟨p, .three v, t⟩) = encode (.vcmpsdVex3 p v t q.2) ∧
        ∀ s, exec (q.1 ⟨p, .three v, t⟩) s = exec (.vcmpsdVex3 p v t q.2) s)) ∧
  (∀ q ∈ [(Instr.vcmpeqsdEvex, 0x00#8), (Instr.vcmpltsdEvex, 0x01#8), (Instr.vcmplesdEvex, 0x02#8),
        (Instr.vcmpunordsdEvex, 0x03#8), (Instr.vcmpneqsdEvex, 0x04#8), (Instr.vcmpnltsdEvex, 0x05#8),
        (Instr.vcmpnlesdEvex, 0x06#8), (Instr.vcmpordsdEvex, 0x07#8), (Instr.vcmpeq_uqsdEvex, 0x08#8),
        (Instr.vcmpngesdEvex, 0x09#8), (Instr.vcmpngtsdEvex, 0x0A#8), (Instr.vcmpfalsesdEvex, 0x0B#8),
        (Instr.vcmpneq_oqsdEvex, 0x0C#8), (Instr.vcmpgesdEvex, 0x0D#8), (Instr.vcmpgtsdEvex, 0x0E#8),
        (Instr.vcmptruesdEvex, 0x0F#8), (Instr.vcmpeq_ossdEvex, 0x10#8), (Instr.vcmplt_oqsdEvex, 0x11#8),
        (Instr.vcmple_oqsdEvex, 0x12#8), (Instr.vcmpunord_ssdEvex, 0x13#8), (Instr.vcmpneq_ussdEvex, 0x14#8),
        (Instr.vcmpnlt_uqsdEvex, 0x15#8), (Instr.vcmpnle_uqsdEvex, 0x16#8), (Instr.vcmpord_ssdEvex, 0x17#8),
        (Instr.vcmpeq_ussdEvex, 0x18#8), (Instr.vcmpnge_uqsdEvex, 0x19#8), (Instr.vcmpngt_uqsdEvex, 0x1A#8),
        (Instr.vcmpfalse_ossdEvex, 0x1B#8), (Instr.vcmpneq_ossdEvex, 0x1C#8), (Instr.vcmpge_oqsdEvex, 0x1D#8),
        (Instr.vcmpgt_oqsdEvex, 0x1E#8), (Instr.vcmptrue_ussdEvex, 0x1F#8)],
      ∀ p e t, encode (q.1 ⟨p, e, t⟩) = encode (.vcmpsdEvex p e t q.2) ∧
        ∀ s, exec (q.1 ⟨p, e, t⟩) s = exec (.vcmpsdEvex p e t q.2) s)

/-- R79, R91, R99: the register numbers of the operands. -/
def Obligations.RegisterNumbersOfTheFields : Prop :=
  (∀ (q : Option Rex) (t : ModRM),
    (destVec (rexBits q) t).toNat = 8 * (match q with | some r => r.r.toNat | none => 0) + t.reg.toNat) ∧
  (∀ (q : Option Rex) (n : BitVec 3),
    (src2Vec (rexBits q) n).toNat = 8 * (match q with | some r => r.b.toNat | none => 0) + n.toNat) ∧
  (∀ (v : Vex2) (t : ModRM), (destVec (vexBits (.two v)) t).toNat = 8 * v.r.toNat + t.reg.toNat) ∧
  (∀ (v : Vex2) (n : BitVec 3), (src2Vec (vexBits (.two v)) n).toNat = n.toNat) ∧
  (∀ (v : Vex3) (t : ModRM), (destVec (vexBits (.three v)) t).toNat = 8 * v.r.toNat + t.reg.toNat) ∧
  (∀ (v : Vex3) (n : BitVec 3), (src2Vec (vexBits (.three v)) n).toNat = 8 * v.b.toNat + n.toNat) ∧
  (∀ p v t, (vexSrc1 ⟨p, .two v, t⟩).toNat = v.vvvv.toNat) ∧
  (∀ p v t, (vexSrc1 ⟨p, .three v, t⟩).toNat = v.vvvv.toNat) ∧
  (∀ e : Evex, (evexSrc1 e).toNat = 16 * e.vHi.toNat + e.vvvv.toNat) ∧
  (∀ (e : Evex) (n : BitVec 3), (evexSrc2 e n).toNat = 16 * e.x.toNat + 8 * e.b.toNat + n.toNat)

/-- R22 with R5's counts: a well-formed form that is enabled names only vector registers that exist. -/
def Obligations.NamedVectorRegistersExist : Prop :=
  ∀ (s : State),
    (∀ o imm, (Form.legacy o imm).wellFormed s.mode = true →
      (destVec (rexBits o.rex) o.t).toNat < s.params.nvec s.mode ∧
      ∀ n, o.t.rm = .reg n → (src2Vec (rexBits o.rex) n).toNat < s.params.nvec s.mode) ∧
    (∀ o imm, (Form.vex o imm).wellFormed s.mode = true →
      (destVec (vexBits o.vex) o.t).toNat < s.params.nvec s.mode ∧ (vexSrc1 o).toNat < s.params.nvec s.mode ∧
      ∀ n, o.t.rm = .reg n → (src2Vec (vexBits o.vex) n).toNat < s.params.nvec s.mode) ∧
    (∀ o imm, (Form.evex o imm).wellFormed s.mode = true → s.enabled .evex = true →
      (evexSrc1 o.evex).toNat < s.params.nvec s.mode ∧
      ∀ n, o.t.rm = .reg n → (evexSrc2 o.evex n).toNat < s.params.nvec s.mode)

/-! ## The step -/

/-- A step is the meaning of the instruction its bytes decode to; the meaning itself moves `pc` past the instruction. -/
def Obligations.StepRunsDecodedInstruction : Prop :=
  ∀ (s : State) (i : Instr) (rest : List Byte), decode s.mode s.fetch.1 = .instr i rest → step s = exec i s

/-- Where memory holds the bytes of a well-formed instruction at `pc`, and neither the text's end nor a fetch fault
stands among them, a step is the meaning of that instruction; so the first step of a launched program is the meaning of
its first instruction (70_reset_and_hazards.md R247). -/
def Obligations.StepRunsEncodedInstruction : Prop :=
  (∀ (s : State) (i : Instr), i.wellFormed s.mode = true →
    (∀ (j : Nat) (h : j < (encode i).length), s.pastText j = false ∧
      fetchFaultAt s.fetchFaults (s.linear .cs s.pc j) = none ∧
      Memory.read s.mem (s.linear .cs s.pc j) = (encode i)[j]) →
    step s = exec i s) ∧
  (∀ (s : State) (base : BitVec 64) (i : Instr) (rest : List Byte), i.wellFormed s.mode = true →
    Memory.wf s.mem = true → (encode i ++ rest).length ≤ 2 ^ 32 →
    (∀ j, j < i.length → fetchFaultAt s.fetchFaults (s.linear .cs base j) = none) →
    step (s.withProgram base (encode i ++ rest)) = exec i (s.withProgram base (encode i ++ rest)))

/-- 60_exceptions.md R211 step 1: a fault at one of the instruction's bytes, the bytes before it being there, gives
that fault with the state unchanged, whatever the instruction would have done. -/
def Obligations.FetchFaultComesFirst : Prop :=
  ∀ (s : State) (i : Instr) (n : Nat) (f : FetchFault), i.wellFormed s.mode = true → n < i.length →
    (∀ (j : Nat) (h : j < (encode i).length), j < n → s.pastText j = false ∧
      fetchFaultAt s.fetchFaults (s.linear .cs s.pc j) = none ∧
      Memory.read s.mem (s.linear .cs s.pc j) = (encode i)[j]) →
    s.pastText n = false → fetchFaultAt s.fetchFaults (s.linear .cs s.pc n) = some f →
    step s = raise f.exception s

/-- 70_reset_and_hazards.md R247: a launch starts at `base` with the program's bytes there, bounded, and everything else
as in the launch state; an instruction that ran ended at or before `base + n`, and from `pc` at or above `base` it lay
within the text and, where the text does not pass the top of the offsets (log 13), the next `pc` lies in
`base .. base + n` again; at `pc = base + n` the run has ended, and the step is refused (log 13), so nothing follows a
successful run. -/
def Obligations.StepStaysInProgramText : Prop :=
  (∀ (s : State) (base : BitVec 64) (bs : List Byte), Memory.wf s.mem = true → bs.length ≤ 2 ^ 32 →
    (s.withProgram base bs).pc = base ∧ (s.withProgram base bs).text = some ⟨base, bs.length⟩ ∧
    (∀ (j : Nat) (h : j < bs.length), Memory.read (s.withProgram base bs).mem (s.linear .cs base j) = bs[j]) ∧
    (∀ a, (∀ j, j < bs.length → a ≠ s.linear .cs base j) →
      Memory.read (s.withProgram base bs).mem a = Memory.read s.mem a) ∧
    { s.withProgram base bs with pc := s.pc, mem := s.mem, text := s.text } = s) ∧
  (∀ (s t : State) (p : ProgramText), s.text = some p → step s = .next t →
    ∃ i rest, decode s.mode s.fetch.1 = .instr i rest ∧ s.pc.toNat + i.length ≤ p.base.toNat + p.len) ∧
  (∀ (s t : State) (p : ProgramText), s.text = some p → p.base.toNat ≤ s.pc.toNat →
    p.base.toNat + p.len < 2 ^ 64 →
    Mode.truncPc s.mode (BitVec.ofNat 64 (p.base.toNat + p.len)) = BitVec.ofNat 64 (p.base.toNat + p.len) →
    step s = .next t →
    t.text = some p ∧ p.base.toNat ≤ t.pc.toNat ∧ t.pc.toNat ≤ p.base.toNat + p.len ∧
    ∃ i rest, decode s.mode s.fetch.1 = .instr i rest ∧ t.pc.toNat = s.pc.toNat + i.length) ∧
  (∀ s : State, s.atEnd → step s = .refused .ranOffProgram) ∧
  (∀ s t : State, Successful s t → step t = .refused .ranOffProgram)

/-- R247: a run has at most one step for every five bytes of its text, so it ends without any fairness. -/
def Obligations.RunLengthIsBounded : Prop :=
  ∀ (n : Nat) (s t : State) (p : ProgramText), s.text = some p → s.pc = p.base →
    Mode.truncPc s.mode (BitVec.ofNat 64 (p.base.toNat + p.len)) = BitVec.ofNat 64 (p.base.toNat + p.len) →
    p.base.toNat + p.len < 2 ^ 64 → Runs n s t → 5 * n ≤ p.len ∧ s.pc.toNat + 5 * n ≤ t.pc.toNat

/-- 30_encoding.md R95: when fifteen prefix bytes have been fetched and no instruction has ended, #GP(0). -/
def Obligations.FifteenPrefixBytesRaiseGP : Prop :=
  ∀ s : State, s.text = none → s.fetchFaults = [] →
    (∀ j, j < 15 → Memory.read s.mem (s.linear .cs s.pc j) ∈
      [0xF2#8, 0xF3#8, 0x66#8, 0xF0#8, 0x67#8, 0x26#8, 0x2E#8, 0x36#8, 0x3E#8, 0x64#8, 0x65#8]) →
    step s = raise .gp s

/-- R100: what a step makes of each rejection of the decoder. -/
def Obligations.StepAnswersRejections : Prop :=
  ∀ s : State,
    (decode s.mode s.fetch.1 = .reject .undefinedOpcode → step s = raise .ud s) ∧
    (decode s.mode s.fetch.1 = .reject .notInScope → step s = .refused .notInScope) ∧
    (decode s.mode s.fetch.1 = .reject .prefixCombination → step s = .refused .prefixCombination) ∧
    (decode s.mode s.fetch.1 = .reject .zeroingMarker → step s = .refused .zeroingMarker) ∧
    (decode s.mode s.fetch.1 = .reject .highRegister → step s = .refused .highRegister)

/-! ## The checks before the operands -/

/-- R71: in Mode16 every form is #UD, the state unchanged. -/
def Obligations.EveryFormUndefinedInMode16 : Prop :=
  ∀ (i : Instr) (s : State), s.mode = .mode16 → exec i s = raise .ud s

/-- 60_exceptions.md R202, 70_reset_and_hazards.md R243, 30_encoding.md R89: the conditions that make a form #UD. -/
def Obligations.UndefinedOpcodeConditions : Prop :=
  ∀ (i : Instr) (s : State),
    (∀ o imm, i.form = .legacy o imm →
      s.mode = .mode16 ∨ s.params.hasSse2 = false ∨ s.cr0.getLsbD 2 = true ∨ s.cr4.getLsbD 9 = false →
      exec i s = raise .ud s) ∧
    (∀ o imm, i.form = .vex o imm →
      s.mode = .mode16 ∨ s.params.hasAvx = false ∨ s.cr4.getLsbD 18 = false ∨ s.xcr0.getLsbD 1 = false ∨
        s.xcr0.getLsbD 2 = false → exec i s = raise .ud s) ∧
    (∀ o imm, i.form = .evex o imm →
      s.mode = .mode16 ∨ s.params.hasAvx512f = false ∨ s.cr4.getLsbD 18 = false ∨ s.xcr0.getLsbD 1 = false ∨
        s.xcr0.getLsbD 2 = false ∨ s.xcr0.getLsbD 5 = false ∨ s.xcr0.getLsbD 6 = false ∨ s.xcr0.getLsbD 7 = false ∨
        (o.evex.bc = true ∧ isMem o.t.rm = true) → exec i s = raise .ud s)

/-- The converse of `UndefinedOpcodeConditions`: R243's premises, and in the EVEX form that `b = 1` does not meet a
memory operand (30_encoding.md R89), are all it takes to be an instruction. -/
def Obligations.EnabledUnderLaunchPremises : Prop :=
  (∀ o : EvexOps, evexFieldsOk o = true ↔ ¬(o.evex.bc = true ∧ isMem o.t.rm = true)) ∧
  ∀ s : State, s.mode ≠ .mode16 →
    (s.params.hasSse2 = true → s.cr0.getLsbD 2 = false → s.cr4.getLsbD 9 = true → s.enabled .legacy = true) ∧
    (s.params.hasAvx = true → s.cr4.getLsbD 18 = true → s.xcr0.getLsbD 1 = true → s.xcr0.getLsbD 2 = true →
      s.enabled .vex = true) ∧
    (s.params.hasAvx512f = true → s.cr4.getLsbD 18 = true → s.xcr0.getLsbD 1 = true → s.xcr0.getLsbD 2 = true →
      s.xcr0.getLsbD 5 = true → s.xcr0.getLsbD 6 = true → s.xcr0.getLsbD 7 = true → s.enabled .evex = true)

/-- R98, `refuse`: an enabled form with a reserved bit of `imm8` set is refused, and no other `imm8` is. `ignore`: it
runs as with the bits clear. -/
def Obligations.ReservedImmediateBits : Prop :=
  ∀ (s : State),
    (∀ o imm, s.enabled .legacy = true → s.params.immReserved = .refuse → 8 ≤ imm.toNat →
      exec (Form.legacy o imm).instr s = .refused .reservedImm) ∧
    (∀ o imm, s.enabled .vex = true → s.params.immReserved = .refuse → 32 ≤ imm.toNat →
      exec (Form.vex o imm).instr s = .refused .reservedImm) ∧
    (∀ o imm, s.enabled .evex = true → evexFieldsOk o = true → s.params.immReserved = .refuse → 32 ≤ imm.toNat →
      exec (Form.evex o imm).instr s = .refused .reservedImm) ∧
    (∀ imm, imm.toNat < 8 → s.immOk .legacy imm) ∧
    (∀ imm, imm.toNat < 32 → s.immOk .vex imm ∧ s.immOk .evex imm) ∧
    (s.params.immReserved = .ignore →
      (∀ f imm, s.immOk f imm) ∧
      (∀ o imm, exec (Form.legacy o imm).instr s = exec (Form.legacy o (imm &&& 7#8)).instr s) ∧
      (∀ o imm, exec (Form.vex o imm).instr s = exec (Form.vex o (imm &&& 31#8)).instr s) ∧
      (∀ o imm, exec (Form.evex o imm).instr s = exec (Form.evex o (imm &&& 31#8)).instr s))

/-- R204: `CR0.TS = 1` is #NM in all three forms, after the #UD conditions and before any operand is read. -/
def Obligations.TaskSwitchedRaisesNM : Prop :=
  ∀ (i : Instr) (s : State), s.cr0.getLsbD 3 = true →
    (∀ o imm, i.form = .legacy o imm → s.enabled .legacy = true → s.immOk .legacy imm → exec i s = raise .nm s) ∧
    (∀ o imm, i.form = .vex o imm → s.enabled .vex = true → s.immOk .vex imm → exec i s = raise .nm s) ∧
    (∀ o imm, i.form = .evex o imm → s.enabled .evex = true → evexFieldsOk o = true → s.immOk .evex imm →
      exec i s = raise .nm s)

/-! ## The three forms -/

/-- R99, 20_memory.md R52: operand B is element 0 of the named register, or one 8-byte read at the operand's segment
and effective address. -/
def Obligations.SecondSourceOperand : Prop :=
  ∀ (s : State) (p : Prefixes) (reg : BitVec 3) (len : Nat),
    (∀ q n, legacyB s ⟨p, q, ⟨reg, .reg n⟩⟩ len = .value (s.vreg (src2Vec (rexBits q) n))[0]) ∧
    (∀ q f, legacyB s ⟨p, q, ⟨reg, .mem f⟩⟩ len =
      s.memRead (operandSegment p (rexBits q) f) (effectiveAddress s .legacy p (rexBits q) len f)) ∧
    (∀ v n, vexB s ⟨p, v, ⟨reg, .reg n⟩⟩ len = .value (s.vreg (src2Vec (vexBits v) n))[0]) ∧
    (∀ v f, vexB s ⟨p, v, ⟨reg, .mem f⟩⟩ len =
      s.memRead (operandSegment p (vexBits v) f) (effectiveAddress s .vex p (vexBits v) len f)) ∧
    (∀ e n, evexB s ⟨p, e, ⟨reg, .reg n⟩⟩ len = .value (s.vreg (evexSrc2 e n))[0]) ∧
    (∀ e f, evexB s ⟨p, e, ⟨reg, .mem f⟩⟩ len =
      s.memRead (operandSegment p (evexBits e) f) (effectiveAddress s .evex p (evexBits e) len f))

/-- R161: CMPSD, with or without REX, and its eight pseudo-mnemonics complete when enabled, with B readable and no
unmasked condition; the low element of the destination becomes the boolean, the rest of it and every other register
are unchanged. The predicate is `imm8[2:0]` (30_encoding.md R97). -/
def Obligations.CmpsdCompletes : Prop :=
  ∀ (i : Instr) (o : LegacyOps) (imm : BitVec 8) (s : State) (b : Word),
    i.form = .legacy o imm → s.ready .legacy → s.immOk .legacy imm → legacyB s o i.length = .value b →
    let d := destVec (rexBits o.rex) o.t
    let a := (s.vreg d)[0]
    let p : BitVec 5 := (imm.extractLsb' 0 3).setWidth 5
    (invalid a b p = true → s.mxcsr.getLsbD 7 = true) →
    (denorm a b s.mxcsr = true → s.mxcsr.getLsbD 8 = true) →
    ∃ t, exec i s = .next t ∧
      (t.vreg d)[0] = (if pred p (rel (dazed s.mxcsr a) (dazed s.mxcsr b)) then 0xFFFFFFFFFFFFFFFF#64 else 0#64) ∧
      (∀ j : Fin 8, j ≠ 0 → (t.vreg d)[j] = (s.vreg d)[j]) ∧ (∀ n, n ≠ d → t.vreg n = s.vreg n) ∧
      (∀ n, t.kreg n = s.kreg n) ∧
      t.mxcsr = withFlags s.mxcsr (invalid a b p) (denorm a b s.mxcsr) ∧
      t.pc = Mode.truncPc s.mode (s.pc + BitVec.ofNat 64 i.length) ∧
      t.answers = (if isMem o.t.rm then s.answers.tail else s.answers) ∧ t.draws = s.draws ∧ SameRest s t

/-- R171: VCMPSD by either VEX prefix and its 32 pseudo-mnemonics complete likewise; the destination becomes the
boolean, element 1 of the first source, and zeros to the top. The predicate is `imm8[4:0]` (30_encoding.md R97). -/
def Obligations.VcmpsdVexCompletes : Prop :=
  ∀ (i : Instr) (o : VexOps) (imm : BitVec 8) (s : State) (b : Word),
    i.form = .vex o imm → s.ready .vex → s.immOk .vex imm → vexB s o i.length = .value b →
    let d := destVec (vexBits o.vex) o.t
    let a := (s.vreg (vexSrc1 o))[0]
    let p : BitVec 5 := imm.extractLsb' 0 5
    (invalid a b p = true → s.mxcsr.getLsbD 7 = true) →
    (denorm a b s.mxcsr = true → s.mxcsr.getLsbD 8 = true) →
    ∃ t, exec i s = .next t ∧
      (t.vreg d)[0] = (if pred p (rel (dazed s.mxcsr a) (dazed s.mxcsr b)) then 0xFFFFFFFFFFFFFFFF#64 else 0#64) ∧
      (t.vreg d)[1] = (s.vreg (vexSrc1 o))[1] ∧ (∀ j : Fin 8, 2 ≤ j.val → (t.vreg d)[j] = 0#64) ∧
      (∀ n, n ≠ d → t.vreg n = s.vreg n) ∧ (∀ n, t.kreg n = s.kreg n) ∧
      t.mxcsr = withFlags s.mxcsr (invalid a b p) (denorm a b s.mxcsr) ∧
      t.pc = Mode.truncPc s.mode (s.pc + BitVec.ofNat 64 i.length) ∧
      t.answers = (if isMem o.t.rm then s.answers.tail else s.answers) ∧ t.draws = s.draws ∧ SameRest s t

/-- R181, R183: VCMPSD by EVEX and its 32 pseudo-mnemonics complete when the write-mask bit is 1 (or there is no write
mask); bit 0 of the destination mask register becomes the boolean and every other bit 0; no vector register is
written. Under sae no condition stops it and no flag is written. The predicate is `imm8[4:0]` (30_encoding.md R97). -/
def Obligations.VcmpsdEvexCompletes : Prop :=
  ∀ (i : Instr) (o : EvexOps) (imm : BitVec 8) (s : State) (b : Word),
    i.form = .evex o imm → s.ready .evex → s.immOk .evex imm → evexFieldsOk o = true →
    (o.evex.aaa = 0#3 ∨ (s.kreg o.evex.aaa).testBit 0 = true) → evexB s o i.length = .value b →
    let a := (s.vreg (evexSrc1 o.evex))[0]
    let p : BitVec 5 := imm.extractLsb' 0 5
    let sae := o.evex.bc && !isMem o.t.rm
    (sae = false → invalid a b p = true → s.mxcsr.getLsbD 7 = true) →
    (sae = false → denorm a b s.mxcsr = true → s.mxcsr.getLsbD 8 = true) →
    ∃ t, exec i s = .next t ∧
      t.kreg o.t.reg = (if pred p (rel (dazed s.mxcsr a) (dazed s.mxcsr b)) then 1 else 0) ∧
      (∀ n, n ≠ o.t.reg → t.kreg n = s.kreg n) ∧ (∀ n, t.vreg n = s.vreg n) ∧
      t.mxcsr = (if sae then s.mxcsr else withFlags s.mxcsr (invalid a b p) (denorm a b s.mxcsr)) ∧
      t.pc = Mode.truncPc s.mode (s.pc + BitVec.ofNat 64 i.length) ∧
      t.answers = (if isMem o.t.rm then s.answers.tail else s.answers) ∧ t.draws = s.draws ∧ SameRest s t

/-- R182, R184: with the write-mask bit 0 the destination becomes 0 whatever the operands hold, no flag is set and no
#XM arises; a memory operand that is readable, or whose read is suppressed, does not stop it; a register operand makes
no data access (20_memory.md R52). -/
def Obligations.VcmpsdEvexMaskedOffCompletes : Prop :=
  ∀ (i : Instr) (o : EvexOps) (imm : BitVec 8) (s : State),
    i.form = .evex o imm → s.ready .evex → s.immOk .evex imm → evexFieldsOk o = true →
    o.evex.aaa ≠ 0#3 → (s.kreg o.evex.aaa).testBit 0 = false →
    (isMem o.t.rm = false ∨ s.params.maskedLoadFaults = .suppressed ∨ ∃ b, evexB s o i.length = .value b) →
    ∃ t, exec i s = .next t ∧ t.kreg o.t.reg = 0 ∧ (∀ n, n ≠ o.t.reg → t.kreg n = s.kreg n) ∧
      (∀ n, t.vreg n = s.vreg n) ∧ t.mxcsr = s.mxcsr ∧
      t.pc = Mode.truncPc s.mode (s.pc + BitVec.ofNat 64 i.length) ∧ SameRest s t ∧
      (isMem o.t.rm = false → t.answers = s.answers ∧ t.draws = s.draws)

/-- R184: the memory form with the write-mask bit 0. `suppressed`: `MemRead` is not called and the destination becomes
0. `taken`: it is called, its value is discarded, its fault is raised. `either`: one of the two, where R184 says that the
model admits both: which one is the free value of log 15. Whether `MemRead` was called is read off the list of answers
(log 8). -/
def Obligations.MaskedLoadFaultsParameter : Prop :=
  ∀ (i : Instr) (o : EvexOps) (imm : BitVec 8) (s : State),
    i.form = .evex o imm → s.ready .evex → s.immOk .evex imm → evexFieldsOk o = true →
    o.evex.aaa ≠ 0#3 → (s.kreg o.evex.aaa).testBit 0 = false → isMem o.t.rm = true →
    let suppressed := ∃ t, exec i s = .next t ∧ t.kreg o.t.reg = 0 ∧ t.answers = s.answers
    let taken := match evexB s o i.length with
      | .fault e => exec i s = raise e s
      | .value _ => ∃ t, exec i s = .next t ∧ t.kreg o.t.reg = 0 ∧ t.answers = s.answers.tail
    (s.params.maskedLoadFaults = .suppressed → suppressed) ∧ (s.params.maskedLoadFaults = .taken → taken) ∧
    (s.params.maskedLoadFaults = .either → suppressed ∨ taken)

/-- 60_exceptions.md R211 step 4: a fault of the memory read is raised with the state unchanged, whatever the values
compared would have signalled. -/
def Obligations.MemoryFaultIsRaised : Prop :=
  ∀ (i : Instr) (s : State) (e : Exception),
    (∀ o imm, i.form = .legacy o imm → s.ready .legacy → s.immOk .legacy imm → legacyB s o i.length = .fault e →
      exec i s = raise e s) ∧
    (∀ o imm, i.form = .vex o imm → s.ready .vex → s.immOk .vex imm → vexB s o i.length = .fault e →
      exec i s = raise e s) ∧
    (∀ o imm, i.form = .evex o imm → s.ready .evex → s.immOk .evex imm → evexFieldsOk o = true →
      (o.evex.aaa = 0#3 ∨ (s.kreg o.evex.aaa).testBit 0 = true) → evexB s o i.length = .fault e →
      exec i s = raise e s)

/-- 40_predicates.md R139, 60_exceptions.md R203: an unmasked condition sets its flag and raises #XM, or #UD when
CR4.OSXMMEXCPT is 0; nothing else of the state changes. -/
def Obligations.UnmaskedConditionRaises : Prop :=
  ∀ (i : Instr) (s : State) (b : Word),
    let e := if s.cr4.getLsbD 10 then Exception.xm else Exception.ud
    (∀ o imm, i.form = .legacy o imm → s.ready .legacy → s.immOk .legacy imm → legacyB s o i.length = .value b →
      let a := (s.vreg (destVec (rexBits o.rex) o.t))[0]
      let p : BitVec 5 := (imm.extractLsb' 0 3).setWidth 5
      (invalid a b p = true ∧ s.mxcsr.getLsbD 7 = false → exec i s = raise e (s.setMxcsr (s.mxcsr ||| 1#32))) ∧
      (denorm a b s.mxcsr = true ∧ s.mxcsr.getLsbD 8 = false → exec i s = raise e (s.setMxcsr (s.mxcsr ||| 2#32)))) ∧
    (∀ o imm, i.form = .vex o imm → s.ready .vex → s.immOk .vex imm → vexB s o i.length = .value b →
      let a := (s.vreg (vexSrc1 o))[0]
      let p : BitVec 5 := imm.extractLsb' 0 5
      (invalid a b p = true ∧ s.mxcsr.getLsbD 7 = false → exec i s = raise e (s.setMxcsr (s.mxcsr ||| 1#32))) ∧
      (denorm a b s.mxcsr = true ∧ s.mxcsr.getLsbD 8 = false → exec i s = raise e (s.setMxcsr (s.mxcsr ||| 2#32)))) ∧
    (∀ o imm, i.form = .evex o imm → s.ready .evex → s.immOk .evex imm → evexFieldsOk o = true →
      (o.evex.aaa = 0#3 ∨ (s.kreg o.evex.aaa).testBit 0 = true) → o.evex.bc = false →
      evexB s o i.length = .value b →
      let a := (s.vreg (evexSrc1 o.evex))[0]
      let p : BitVec 5 := imm.extractLsb' 0 5
      (invalid a b p = true ∧ s.mxcsr.getLsbD 7 = false → exec i s = raise e (s.setMxcsr (s.mxcsr ||| 1#32))) ∧
      (denorm a b s.mxcsr = true ∧ s.mxcsr.getLsbD 8 = false → exec i s = raise e (s.setMxcsr (s.mxcsr ||| 2#32))))

/-! ## Rules of the whole machine -/

/-- R21, R25, R27, R33, R51: what any instruction that answers a next state leaves unchanged: all of memory, every
addressing register and control bit, MXCSR but for IE and DE, which are only set; the legacy and VEX forms leave the
mask registers, the EVEX form the vector registers. -/
def Obligations.EveryInstructionFrame : Prop :=
  ∀ (i : Instr) (s t : State), exec i s = .next t →
    SameRest s t ∧ (∀ n, n ≠ 0 → n ≠ 1 → t.mxcsr.getLsbD n = s.mxcsr.getLsbD n) ∧
    (s.mxcsr.getLsbD 0 = true → t.mxcsr.getLsbD 0 = true) ∧ (s.mxcsr.getLsbD 1 = true → t.mxcsr.getLsbD 1 = true) ∧
    t.pc = Mode.truncPc s.mode (s.pc + BitVec.ofNat 64 i.length) ∧
    (∀ o imm, i.form = .legacy o imm → (∀ n, t.kreg n = s.kreg n) ∧
      (∀ n, n ≠ destVec (rexBits o.rex) o.t → t.vreg n = s.vreg n)) ∧
    (∀ o imm, i.form = .vex o imm → (∀ n, t.kreg n = s.kreg n) ∧
      (∀ n, n ≠ destVec (vexBits o.vex) o.t → t.vreg n = s.vreg n)) ∧
    (∀ o imm, i.form = .evex o imm → (∀ n, t.vreg n = s.vreg n) ∧ (∀ n, n ≠ o.t.reg → t.kreg n = s.kreg n))

/-- 60_exceptions.md R212: a fault's state is the state before the instruction but for the MXCSR flags of step 5, and
those change by one flag, only with #XM, or with #UD in its place. -/
def Obligations.FaultsArePrecise : Prop :=
  ∀ (s t : State) (e : Exception),
    (step s = .fault (.exception e t) ∨ ∃ i, exec i s = .fault (.exception e t)) →
    t = s.setMxcsr t.mxcsr ∧
    (t.mxcsr = s.mxcsr ∨ ((t.mxcsr = s.mxcsr ||| 1#32 ∨ t.mxcsr = s.mxcsr ||| 2#32) ∧
      e = if s.osxmmexcpt then .xm else .ud))

/-- 20_memory.md R51, R62 along a whole run: memory, the program text and everything no instruction writes stay as
they were, the flags IE and DE only accumulate, and what is fetched at any address is the same throughout. -/
def Obligations.RunsChangeNoMemoryOrText : Prop :=
  ∀ (n : Nat) (s t : State), Runs n s t →
    SameRest s t ∧ (∀ k, k ≠ 0 → k ≠ 1 → t.mxcsr.getLsbD k = s.mxcsr.getLsbD k) ∧
    (s.mxcsr.getLsbD 0 = true → t.mxcsr.getLsbD 0 = true) ∧ (s.mxcsr.getLsbD 1 = true → t.mxcsr.getLsbD 1 = true) ∧
    ∀ a, State.fetch { t with pc := a } = State.fetch { s with pc := a }

/-! ## The comparison -/

/-- R123, R124: the predicate table, row by row: LT, EQ, GT, UN and whether a quiet NaN signals. -/
def Obligations.PredicateTable : Prop :=
  ∀ p : BitVec 5, some (pred p .lt, pred p .eq, pred p .gt, pred p .un, signals p) =
    [(false, true, false, false, false), (true, false, false, false, true), (true, true, false, false, true),
     (false, false, false, true, false), (true, false, true, true, false), (false, true, true, true, true),
     (false, false, true, true, true), (true, true, true, false, false), (false, true, false, true, false),
     (true, false, false, true, true), (true, true, false, true, true), (false, false, false, false, false),
     (true, false, true, false, false), (false, true, true, false, true), (false, false, true, false, true),
     (true, true, true, true, false), (false, true, false, false, true), (true, false, false, false, false),
     (true, true, false, false, false), (false, false, false, true, true), (true, false, true, true, true),
     (false, true, true, true, false), (false, false, true, true, false), (true, true, true, false, true),
     (false, true, false, true, true), (true, false, false, true, false), (true, true, false, true, false),
     (false, false, false, false, true), (true, false, true, false, true), (false, true, true, false, false),
     (false, false, true, false, false), (true, true, true, true, true)][p.toNat]?

/-- R125, which marks it as its own inference from R123 and R124: bit 4 flips the signalling property only, bit 2 negates
the truth value, bit 3 flips the UN column only, bits 1:0 pick the base test. -/
def Obligations.PredicateStructure : Prop :=
  ∀ p : BitVec 5,
    (∀ r, pred (p ^^^ 16#5) r = pred p r) ∧ signals (p ^^^ 16#5) = !signals p ∧
    (∀ r, pred (p ^^^ 4#5) r = !pred p r) ∧ signals (p ^^^ 4#5) = signals p ∧
    pred (p ^^^ 8#5) .un = (!pred p .un) ∧ (∀ r, r ≠ .un → pred (p ^^^ 8#5) r = pred p r) ∧
    signals (p ^^^ 8#5) = signals p ∧
    (p.extractLsb' 2 2 = 0#2 →
      pred p .lt = (p.extractLsb' 0 2 == 1#2 || p.extractLsb' 0 2 == 2#2) ∧
      pred p .eq = (p.extractLsb' 0 2 == 0#2 || p.extractLsb' 0 2 == 2#2) ∧
      pred p .gt = false ∧ pred p .un = (p.extractLsb' 0 2 == 3#2))

/-- R122: the relation on the values of the operands equals the bit-level test on their integer keys: bits 62:0 with
the sign of bit 63. -/
def Obligations.RelationEqualsKeyComparison : Prop :=
  ∀ a b : Word,
    (fpKey a = if a.getLsbD 63 then -((a.extractLsb' 0 63).toNat : Int) else (a.extractLsb' 0 63).toNat) ∧
    (rel a b = .un ↔ isNaN a = true ∨ isNaN b = true) ∧
    (isNaN a = false → isNaN b = false →
      (rel a b = .lt ↔ fpKey a < fpKey b) ∧ (rel a b = .eq ↔ fpKey a = fpKey b) ∧ (rel a b = .gt ↔ fpKey b < fpKey a))

/-- R126: A > B is what B < A is, so exchanging the operands exchanges the relation. -/
def Obligations.RelationExchanged : Prop :=
  ∀ a b : Word, (rel a b = .gt ↔ rel b a = .lt) ∧ (rel a b = .eq ↔ rel b a = .eq) ∧ (rel a b = .un ↔ rel b a = .un)

/-- R122, R141 (a), (b), (c): zeros of either sign are equal, infinities of one sign are equal and bound every
finite value, and a register compared with itself is EQ, or UN when it holds a NaN. -/
def Obligations.RelationCorners : Prop :=
  rel 0x0000000000000000#64 0x8000000000000000#64 = .eq ∧ rel 0x8000000000000000#64 0x0000000000000000#64 = .eq ∧
  rel 0x7FF0000000000000#64 0x7FF0000000000000#64 = .eq ∧ rel 0xFFF0000000000000#64 0xFFF0000000000000#64 = .eq ∧
  (∀ a, fpClass a ≠ .nan → fpClass a ≠ .infinity →
    rel 0xFFF0000000000000#64 a = .lt ∧ rel a 0x7FF0000000000000#64 = .lt) ∧
  (∀ a, rel a a = if isNaN a then .un else .eq)

/-- R135: a signalling NaN is invalid under every predicate (the spec's own decision D11: log 20), a quiet NaN exactly
under the signalling ones, and no other operand is. R120, R121: a NaN has an exponent of all ones and a fraction that
is not 0, and bit 51 tells a quiet one from a signalling one. -/
def Obligations.InvalidOperationCondition : Prop :=
  ∀ (a b : Word) (p : BitVec 5),
    (isNaN a = true ↔ a.extractLsb' 52 11 = 0x7FF#11 ∧ a.extractLsb' 0 52 ≠ 0#52) ∧
    (isSNaN a = true ↔ isNaN a = true ∧ a.getLsbD 51 = false) ∧
    (isQNaN a = true ↔ isNaN a = true ∧ a.getLsbD 51 = true) ∧
    (isSNaN a = true ∨ isSNaN b = true → invalid a b p = true) ∧
    (isSNaN a = false → isSNaN b = false → (isQNaN a = true ∨ isQNaN b = true) → invalid a b p = signals p) ∧
    (isNaN a = false → isNaN b = false → invalid a b p = false)

/-- R136: the denormal condition, which a NaN operand and DAZ suppress (the spec's own decision D12: log 20), never
together with the invalid one (R136's own inference). R120: a denormal has exponent 0 and a fraction that is not 0. -/
def Obligations.DenormalOperandCondition : Prop :=
  ∀ (a b : Word) (p : BitVec 5) (mx : BitVec 32),
    (isDenormal a = true ↔ a.extractLsb' 52 11 = 0#11 ∧ a.extractLsb' 0 52 ≠ 0#52) ∧
    (denorm a b mx = true ↔ (isDenormal a = true ∨ isDenormal b = true) ∧ mx.getLsbD 6 = false ∧
      isNaN a = false ∧ isNaN b = false) ∧
    ¬(invalid a b p = true ∧ denorm a b mx = true)

/-- R137: under DAZ a denormal compares as the zero of its sign, so it equals either zero and every other denormal,
and the denormal condition does not arise; without DAZ, and of any other operand, the value compared is the operand. -/
def Obligations.DazComparesDenormalsAsZero : Prop :=
  ∀ (a b : Word) (p : BitVec 5) (mx : BitVec 32),
    compareResult a b p mx = pred p (rel (dazed mx a) (dazed mx b)) ∧
    (mx.getLsbD 6 = false ∨ isDenormal a = false → dazed mx a = a) ∧
    (mx.getLsbD 6 = true → isDenormal a = true →
      dazed mx a = a &&& 0x8000000000000000#64 ∧
      denorm a b mx = false ∧ compareResult a b p mx = compareResult 0#64 b p mx ∧
      compareResult b a p mx = compareResult b 0#64 p mx ∧
      (isDenormal b = true → compareResult a b p mx = pred p .eq))

/-- R138, R140: MXCSR after Compare: IE and DE are set when their condition holds and are never cleared, no other bit
changes; under sae nothing changes and the result is the same. -/
def Obligations.CompareSetsOnlyItsFlags : Prop :=
  ∀ (a b : Word) (p : BitVec 5) (os : Bool) (mx mx' : BitVec 32),
    ((∃ r, compareOp a b p false os mx = .done r mx') ∨ (∃ e, compareOp a b p false os mx = .raises e mx') →
      mx'.getLsbD 0 = (mx.getLsbD 0 || invalid a b p) ∧ mx'.getLsbD 1 = (mx.getLsbD 1 || denorm a b mx) ∧
      ∀ n, 2 ≤ n → mx'.getLsbD n = mx.getLsbD n) ∧
    (∀ r, compareOp a b p false os mx = .done r mx' → compareOp a b p true os mx = .done r mx)

/-! ## Addressing and memory -/

/-- R81 to R85: the effective address of 32-bit and 64-bit addressing, as exact integer arithmetic reduced modulo
`2 ^ asz`. An 8-bit displacement counts 8 times in the EVEX form (R84). -/
def Obligations.EffectiveAddressIsExact : Prop :=
  ∀ (s : State) (f : FormKind) (p : Prefixes) (e : ExtBits) (len : Nat),
    s.mode = .mode64 ∨ (s.mode = .mode32 ∧ p.a67 = false) →
    let size : Int := if s.mode = .mode64 ∧ p.a67 = false then 2 ^ 64 else 2 ^ 32
    let disp : Disp → Int := fun d => match d with
      | .none => 0
      | .d8 d => d.toInt * (if f = .evex then 8 else 1)
      | .d32 d => d.toInt
    let index : BitVec 2 → BitVec 3 → Int := fun sc ix =>
      if e.x = false ∧ ix = 4#3 then 0 else (s.xreg (BitVec.ofBool e.x ++ ix)).toNat * 2 ^ sc.toNat
    (∀ d, ((effectiveAddress s f p e len (.direct d)).toNat : Int) =
      ((if s.mode = .mode64 then (s.pc.toNat : Int) + len else 0) + d.toInt) % size) ∧
    (∀ rm d, ((effectiveAddress s f p e len (.based rm d)).toNat : Int) =
      ((s.xreg (BitVec.ofBool e.b ++ rm)).toNat + disp d) % size) ∧
    (∀ sc ix bs d, ((effectiveAddress s f p e len (.sib sc ix bs d)).toNat : Int) =
      ((s.xreg (BitVec.ofBool e.b ++ bs)).toNat + index sc ix + disp d) % size) ∧
    (∀ sc ix d, ((effectiveAddress s f p e len (.sibNoBase sc ix d)).toNat : Int) = (index sc ix + d.toInt) % size)

/-- R87: 16-bit addressing, in Mode32 with `67`: the table of base sums, modulo `2 ^ 16`, and of default segments. -/
def Obligations.SixteenBitAddressTable : Prop :=
  ∀ (s : State) (f : FormKind) (p : Prefixes) (e : ExtBits) (len : Nat), s.mode = .mode32 → p.a67 = true →
    let low : BitVec 4 → Int := fun n => (s.xreg n).toNat % 2 ^ 16
    let disp : Disp16 → Int := fun d => match d with
      | .none => 0
      | .d8 d => d.toInt * (if f = .evex then 8 else 1)
      | .d16 d => d.toNat
    (∀ d, ((effectiveAddress s f p e len (.direct16 d)).toNat : Int) = d.toNat ∧ defaultSegment e (.direct16 d) = .ds) ∧
    (∀ q ∈ [(0#3, low 3#4 + low 6#4, Seg.ds), (1#3, low 3#4 + low 7#4, .ds), (2#3, low 5#4 + low 6#4, .ss),
        (3#3, low 5#4 + low 7#4, .ss), (4#3, low 6#4, .ds), (5#3, low 7#4, .ds), (6#3, low 5#4, .ss),
        (7#3, low 3#4, .ds)],
      ∀ d, ((effectiveAddress s f p e len (.based16 q.1 d)).toNat : Int) = (q.2.1 + disp d) % 2 ^ 16 ∧
        defaultSegment e (.based16 q.1 d) = q.2.2)

/-- R86, R87: the segment of a memory operand: an override, else SS for a base register 4 or 5 (or `BP` in 16-bit
addressing), else DS; in Mode64 ES, CS, SS and DS count as 0 and FS and GS keep their bases, in Mode32 (and in the
model's Mode16) every segment has its own (10_state.md R30). -/
def Obligations.SegmentOfTheOperand : Prop :=
  (∀ (p : Prefixes) (e : ExtBits) (f : MemForm) (g : Seg), p.seg = some g → operandSegment p e f = g) ∧
  (∀ (p : Prefixes) (e : ExtBits), p.seg = none →
    (∀ d, operandSegment p e (.direct d) = .ds) ∧ (∀ sc ix d, operandSegment p e (.sibNoBase sc ix d) = .ds) ∧
    (∀ rm d, operandSegment p e (.based rm d) = if e.b = false ∧ (rm = 4#3 ∨ rm = 5#3) then .ss else .ds) ∧
    (∀ sc ix bs d, operandSegment p e (.sib sc ix bs d) = if e.b = false ∧ (bs = 4#3 ∨ bs = 5#3) then .ss else .ds) ∧
    (∀ d, operandSegment p e (.direct16 d) = .ds) ∧
    (∀ rm d, operandSegment p e (.based16 rm d) = if rm = 2#3 ∨ rm = 3#3 ∨ rm = 6#3 then .ss else .ds)) ∧
  (∀ s : State, s.mode = .mode64 → s.segmentBase .es = 0#64 ∧ s.segmentBase .cs = 0#64 ∧ s.segmentBase .ss = 0#64 ∧
    s.segmentBase .ds = 0#64 ∧ s.segmentBase .fs = s.segBase.fs ∧ s.segmentBase .gs = s.segBase.gs) ∧
  (∀ s : State, s.mode ≠ .mode64 → s.segmentBase .es = s.segBase.es ∧ s.segmentBase .cs = s.segBase.cs ∧
    s.segmentBase .ss = s.segBase.ss ∧ s.segmentBase .ds = s.segBase.ds ∧ s.segmentBase .fs = s.segBase.fs ∧
    s.segmentBase .gs = s.segBase.gs)

/-- 20_memory.md R53: the byte at `ea + i` supplies bits `8 * i + 7 : 8 * i` of the operand, and bit 7 of the last byte
is its sign. The linear address of the byte, base and offset and `i` reduced to the width of the mode, is the model's
(log 9). -/
def Obligations.MemoryOperandIsLittleEndian : Prop :=
  ∀ (s : State) (g : Seg) (ea : BitVec 64),
    (∀ i, i < 8 → (s.read64 g ea).extractLsb' (8 * i) 8 = s.dataByte g ea i) ∧
    fpSign (s.read64 g ea) = (s.dataByte g ea 7).getLsbD 7 ∧
    ∀ i, s.dataByte g ea i = Memory.read s.mem
      (((s.segmentBase g).toNat + ea.toNat + i) % (if s.mode = .mode64 then 2 ^ 64 else 2 ^ 32))

/-- 60_exceptions.md R209, 20_memory.md R50, R54, R56: where the oracle (log 8) scripts nothing, answers memory or answers
a value, a read faults exactly when alignment checking is on and the address is no multiple of 8, and then with #AC(0)
(the check inside MemRead, also before a scripted value: log 10); else it returns the 8 bytes of memory, or that
value. -/
def Obligations.AlignmentCheckOnly : Prop :=
  ∀ (s : State) (g : Seg) (ea : BitVec 64),
    let checked : Word → MemResult := fun b =>
      if s.cr0.getLsbD 18 = true ∧ s.rflags.getLsbD 18 = true ∧ s.cpl = 3 ∧ ea.toNat % 8 ≠ 0 then .fault .ac
      else .value b
    (s.answers = [] → s.memRead g ea = checked (s.read64 g ea)) ∧
    (∀ more, s.answers = .memory :: more → s.memRead g ea = checked (s.read64 g ea)) ∧
    (∀ b more, s.answers = .value b :: more → s.memRead g ea = checked b)

/-- 60_exceptions.md R206, R207, R208: a segment violation is #SS(0) in segment SS and #GP(0) in any other; a page fault
carries its code and address. The form of the oracle is the model's (log 8). -/
def Obligations.OracleFaultsOfARead : Prop :=
  ∀ (s : State) (g : Seg) (ea : BitVec 64) (more : List MemAnswer),
    (s.answers = .segmentViolation :: more → s.memRead g ea = .fault (if g = .ss then .ss else .gp)) ∧
    (∀ c a, s.answers = .pageFault c a :: more → s.memRead g ea = .fault (.pf c a))

/-- 60_exceptions.md R200: the vector numbers and error codes. -/
def Obligations.ExceptionVectorsAndCodes : Prop :=
  Exception.ud.vector = 6 ∧ Exception.nm.vector = 7 ∧ Exception.ss.vector = 12 ∧ Exception.gp.vector = 13 ∧
  (∀ c a, (Exception.pf c a).vector = 14) ∧ Exception.ac.vector = 17 ∧ Exception.xm.vector = 19 ∧
  Exception.ud.errorCode = none ∧ Exception.nm.errorCode = none ∧ Exception.ss.errorCode = some 0#32 ∧
  Exception.gp.errorCode = some 0#32 ∧ (∀ c a, (Exception.pf c a).errorCode = some c) ∧
  Exception.ac.errorCode = some 0#32 ∧ Exception.xm.errorCode = none

/-! ## Encodings that are the same instruction -/

/-- R75, R77, R90: REX.W, VEX.L, VEX.W and EVEX.L'L are ignored. -/
def Obligations.IgnoredPrefixBits : Prop :=
  ∀ (p : Prefixes) (t : ModRM) (imm : BitVec 8) (s : State),
    (∀ w w' r x b, exec (.cmpsdRex p ⟨w, r, x, b⟩ t imm) s = exec (.cmpsdRex p ⟨w', r, x, b⟩ t imm) s) ∧
    (∀ r v l l', exec (.vcmpsdVex2 p ⟨r, v, l⟩ t imm) s = exec (.vcmpsdVex2 p ⟨r, v, l'⟩ t imm) s) ∧
    (∀ r x b v w w' l l',
      exec (.vcmpsdVex3 p ⟨r, x, b, w, v, l⟩ t imm) s = exec (.vcmpsdVex3 p ⟨r, x, b, w', v, l'⟩ t imm) s) ∧
    (∀ x b v ll ll' bc h a,
      exec (.vcmpsdEvex p ⟨x, b, v, ll, bc, h, a⟩ t imm) s = exec (.vcmpsdEvex p ⟨x, b, v, ll', bc, h, a⟩ t imm) s)

/-- R77, R172 (g): the two-byte and three-byte VEX encodings with equal fields give the same result, each moving `pc` by
its own length. A RIP-relative operand is left out, since its address depends on that length. -/
def Obligations.TwoAndThreeByteVexAgree : Prop :=
  ∀ (p : Prefixes) (r w l l' : Bool) (v : BitVec 4) (m : ModRM) (imm : BitVec 8) (s t : State),
    (∀ d, m.rm = .mem (.direct d) → s.mode ≠ .mode64) →
    exec (.vcmpsdVex2 p ⟨r, v, l⟩ m imm) s = .next t →
    exec (.vcmpsdVex3 p ⟨r, false, false, w, v, l'⟩ m imm) s =
      .next { t with pc := Mode.truncPc s.mode (s.pc + BitVec.ofNat 64 (p.count + 6 + m.rm.size)) }

/-- 43_vcmpsd_evex.md R182: bits 1 and above of the write mask are not read: other values there change only that
register itself, and nothing when it is the destination. -/
def Obligations.WriteMaskUpperBitsUnread : Prop :=
  ∀ (i : Instr) (o : EvexOps) (imm : BitVec 8) (s t : State) (m : MaskReg), i.form = .evex o imm →
    m.testBit 0 = (s.kreg o.evex.aaa).testBit 0 → exec i s = .next t →
    exec i (s.setKreg o.evex.aaa m) = .next (if o.evex.aaa = o.t.reg then t else t.setKreg o.evex.aaa m)

/-- 10_state.md R24: `aaa = 0` is no write mask: what `k[0]` holds does not matter. -/
def Obligations.MaskRegisterZeroIsNoWriteMask : Prop :=
  ∀ (i : Instr) (o : EvexOps) (imm : BitVec 8) (s t : State) (m : MaskReg), i.form = .evex o imm →
    o.evex.aaa = 0#3 → exec i s = .next t →
    exec i (s.setKreg 0#3 m) = .next (if o.t.reg = 0#3 then t else t.setKreg 0#3 m)
end

