-- ==== Sys2Proof/Laws/State.lean ====
section
/-! SUPPORT. One lemma per field per update of State, and the laws of the register accessors. -/

namespace Sys2Proof.Machine

/-! ## setVreg writes v only -/

@[simp] theorem State.setVreg_params (s : State) (n : BitVec 5) (r : VecReg) : (s.setVreg n r).params = s.params := rfl
@[simp] theorem State.setVreg_mode (s : State) (n : BitVec 5) (r : VecReg) : (s.setVreg n r).mode = s.mode := rfl
@[simp] theorem State.setVreg_pc (s : State) (n : BitVec 5) (r : VecReg) : (s.setVreg n r).pc = s.pc := rfl
@[simp] theorem State.setVreg_x (s : State) (n : BitVec 5) (r : VecReg) : (s.setVreg n r).x = s.x := rfl
@[simp] theorem State.setVreg_segBase (s : State) (n : BitVec 5) (r : VecReg) : (s.setVreg n r).segBase = s.segBase := rfl
@[simp] theorem State.setVreg_k (s : State) (n : BitVec 5) (r : VecReg) : (s.setVreg n r).k = s.k := rfl
@[simp] theorem State.setVreg_mxcsr (s : State) (n : BitVec 5) (r : VecReg) : (s.setVreg n r).mxcsr = s.mxcsr := rfl
@[simp] theorem State.setVreg_cr0 (s : State) (n : BitVec 5) (r : VecReg) : (s.setVreg n r).cr0 = s.cr0 := rfl
@[simp] theorem State.setVreg_cr4 (s : State) (n : BitVec 5) (r : VecReg) : (s.setVreg n r).cr4 = s.cr4 := rfl
@[simp] theorem State.setVreg_xcr0 (s : State) (n : BitVec 5) (r : VecReg) : (s.setVreg n r).xcr0 = s.xcr0 := rfl
@[simp] theorem State.setVreg_rflags (s : State) (n : BitVec 5) (r : VecReg) : (s.setVreg n r).rflags = s.rflags := rfl
@[simp] theorem State.setVreg_cpl (s : State) (n : BitVec 5) (r : VecReg) : (s.setVreg n r).cpl = s.cpl := rfl
@[simp] theorem State.setVreg_mem (s : State) (n : BitVec 5) (r : VecReg) : (s.setVreg n r).mem = s.mem := rfl
@[simp] theorem State.setVreg_answers (s : State) (n : BitVec 5) (r : VecReg) : (s.setVreg n r).answers = s.answers := rfl
@[simp] theorem State.setVreg_fetchFaults (s : State) (n : BitVec 5) (r : VecReg) : (s.setVreg n r).fetchFaults = s.fetchFaults := rfl
@[simp] theorem State.setVreg_text (s : State) (n : BitVec 5) (r : VecReg) : (s.setVreg n r).text = s.text := rfl
@[simp] theorem State.setVreg_draws (s : State) (n : BitVec 5) (r : VecReg) : (s.setVreg n r).draws = s.draws := rfl

/-! ## setKreg writes k only -/

@[simp] theorem State.setKreg_params (s : State) (n : BitVec 3) (r : MaskReg) : (s.setKreg n r).params = s.params := rfl
@[simp] theorem State.setKreg_mode (s : State) (n : BitVec 3) (r : MaskReg) : (s.setKreg n r).mode = s.mode := rfl
@[simp] theorem State.setKreg_pc (s : State) (n : BitVec 3) (r : MaskReg) : (s.setKreg n r).pc = s.pc := rfl
@[simp] theorem State.setKreg_x (s : State) (n : BitVec 3) (r : MaskReg) : (s.setKreg n r).x = s.x := rfl
@[simp] theorem State.setKreg_segBase (s : State) (n : BitVec 3) (r : MaskReg) : (s.setKreg n r).segBase = s.segBase := rfl
@[simp] theorem State.setKreg_v (s : State) (n : BitVec 3) (r : MaskReg) : (s.setKreg n r).v = s.v := rfl
@[simp] theorem State.setKreg_mxcsr (s : State) (n : BitVec 3) (r : MaskReg) : (s.setKreg n r).mxcsr = s.mxcsr := rfl
@[simp] theorem State.setKreg_cr0 (s : State) (n : BitVec 3) (r : MaskReg) : (s.setKreg n r).cr0 = s.cr0 := rfl
@[simp] theorem State.setKreg_cr4 (s : State) (n : BitVec 3) (r : MaskReg) : (s.setKreg n r).cr4 = s.cr4 := rfl
@[simp] theorem State.setKreg_xcr0 (s : State) (n : BitVec 3) (r : MaskReg) : (s.setKreg n r).xcr0 = s.xcr0 := rfl
@[simp] theorem State.setKreg_rflags (s : State) (n : BitVec 3) (r : MaskReg) : (s.setKreg n r).rflags = s.rflags := rfl
@[simp] theorem State.setKreg_cpl (s : State) (n : BitVec 3) (r : MaskReg) : (s.setKreg n r).cpl = s.cpl := rfl
@[simp] theorem State.setKreg_mem (s : State) (n : BitVec 3) (r : MaskReg) : (s.setKreg n r).mem = s.mem := rfl
@[simp] theorem State.setKreg_answers (s : State) (n : BitVec 3) (r : MaskReg) : (s.setKreg n r).answers = s.answers := rfl
@[simp] theorem State.setKreg_fetchFaults (s : State) (n : BitVec 3) (r : MaskReg) : (s.setKreg n r).fetchFaults = s.fetchFaults := rfl
@[simp] theorem State.setKreg_text (s : State) (n : BitVec 3) (r : MaskReg) : (s.setKreg n r).text = s.text := rfl
@[simp] theorem State.setKreg_draws (s : State) (n : BitVec 3) (r : MaskReg) : (s.setKreg n r).draws = s.draws := rfl

/-! ## setMxcsr writes mxcsr only -/

@[simp] theorem State.setMxcsr_params (s : State) (m : BitVec 32) : (s.setMxcsr m).params = s.params := rfl
@[simp] theorem State.setMxcsr_mode (s : State) (m : BitVec 32) : (s.setMxcsr m).mode = s.mode := rfl
@[simp] theorem State.setMxcsr_pc (s : State) (m : BitVec 32) : (s.setMxcsr m).pc = s.pc := rfl
@[simp] theorem State.setMxcsr_x (s : State) (m : BitVec 32) : (s.setMxcsr m).x = s.x := rfl
@[simp] theorem State.setMxcsr_segBase (s : State) (m : BitVec 32) : (s.setMxcsr m).segBase = s.segBase := rfl
@[simp] theorem State.setMxcsr_v (s : State) (m : BitVec 32) : (s.setMxcsr m).v = s.v := rfl
@[simp] theorem State.setMxcsr_k (s : State) (m : BitVec 32) : (s.setMxcsr m).k = s.k := rfl
@[simp] theorem State.setMxcsr_cr0 (s : State) (m : BitVec 32) : (s.setMxcsr m).cr0 = s.cr0 := rfl
@[simp] theorem State.setMxcsr_cr4 (s : State) (m : BitVec 32) : (s.setMxcsr m).cr4 = s.cr4 := rfl
@[simp] theorem State.setMxcsr_xcr0 (s : State) (m : BitVec 32) : (s.setMxcsr m).xcr0 = s.xcr0 := rfl
@[simp] theorem State.setMxcsr_rflags (s : State) (m : BitVec 32) : (s.setMxcsr m).rflags = s.rflags := rfl
@[simp] theorem State.setMxcsr_cpl (s : State) (m : BitVec 32) : (s.setMxcsr m).cpl = s.cpl := rfl
@[simp] theorem State.setMxcsr_mem (s : State) (m : BitVec 32) : (s.setMxcsr m).mem = s.mem := rfl
@[simp] theorem State.setMxcsr_answers (s : State) (m : BitVec 32) : (s.setMxcsr m).answers = s.answers := rfl
@[simp] theorem State.setMxcsr_fetchFaults (s : State) (m : BitVec 32) : (s.setMxcsr m).fetchFaults = s.fetchFaults := rfl
@[simp] theorem State.setMxcsr_text (s : State) (m : BitVec 32) : (s.setMxcsr m).text = s.text := rfl
@[simp] theorem State.setMxcsr_draws (s : State) (m : BitVec 32) : (s.setMxcsr m).draws = s.draws := rfl

/-! ## answered writes answers only -/

@[simp] theorem State.answered_params (s : State) : (s.answered).params = s.params := rfl
@[simp] theorem State.answered_mode (s : State) : (s.answered).mode = s.mode := rfl
@[simp] theorem State.answered_pc (s : State) : (s.answered).pc = s.pc := rfl
@[simp] theorem State.answered_x (s : State) : (s.answered).x = s.x := rfl
@[simp] theorem State.answered_segBase (s : State) : (s.answered).segBase = s.segBase := rfl
@[simp] theorem State.answered_v (s : State) : (s.answered).v = s.v := rfl
@[simp] theorem State.answered_k (s : State) : (s.answered).k = s.k := rfl
@[simp] theorem State.answered_mxcsr (s : State) : (s.answered).mxcsr = s.mxcsr := rfl
@[simp] theorem State.answered_cr0 (s : State) : (s.answered).cr0 = s.cr0 := rfl
@[simp] theorem State.answered_cr4 (s : State) : (s.answered).cr4 = s.cr4 := rfl
@[simp] theorem State.answered_xcr0 (s : State) : (s.answered).xcr0 = s.xcr0 := rfl
@[simp] theorem State.answered_rflags (s : State) : (s.answered).rflags = s.rflags := rfl
@[simp] theorem State.answered_cpl (s : State) : (s.answered).cpl = s.cpl := rfl
@[simp] theorem State.answered_mem (s : State) : (s.answered).mem = s.mem := rfl
@[simp] theorem State.answered_fetchFaults (s : State) : (s.answered).fetchFaults = s.fetchFaults := rfl
@[simp] theorem State.answered_text (s : State) : (s.answered).text = s.text := rfl
@[simp] theorem State.answered_draws (s : State) : (s.answered).draws = s.draws := rfl

/-! ## advance writes pc only -/

@[simp] theorem State.advance_params (s : State) (len : Nat) : (s.advance len).params = s.params := rfl
@[simp] theorem State.advance_mode (s : State) (len : Nat) : (s.advance len).mode = s.mode := rfl
@[simp] theorem State.advance_x (s : State) (len : Nat) : (s.advance len).x = s.x := rfl
@[simp] theorem State.advance_segBase (s : State) (len : Nat) : (s.advance len).segBase = s.segBase := rfl
@[simp] theorem State.advance_v (s : State) (len : Nat) : (s.advance len).v = s.v := rfl
@[simp] theorem State.advance_k (s : State) (len : Nat) : (s.advance len).k = s.k := rfl
@[simp] theorem State.advance_mxcsr (s : State) (len : Nat) : (s.advance len).mxcsr = s.mxcsr := rfl
@[simp] theorem State.advance_cr0 (s : State) (len : Nat) : (s.advance len).cr0 = s.cr0 := rfl
@[simp] theorem State.advance_cr4 (s : State) (len : Nat) : (s.advance len).cr4 = s.cr4 := rfl
@[simp] theorem State.advance_xcr0 (s : State) (len : Nat) : (s.advance len).xcr0 = s.xcr0 := rfl
@[simp] theorem State.advance_rflags (s : State) (len : Nat) : (s.advance len).rflags = s.rflags := rfl
@[simp] theorem State.advance_cpl (s : State) (len : Nat) : (s.advance len).cpl = s.cpl := rfl
@[simp] theorem State.advance_mem (s : State) (len : Nat) : (s.advance len).mem = s.mem := rfl
@[simp] theorem State.advance_answers (s : State) (len : Nat) : (s.advance len).answers = s.answers := rfl
@[simp] theorem State.advance_fetchFaults (s : State) (len : Nat) : (s.advance len).fetchFaults = s.fetchFaults := rfl
@[simp] theorem State.advance_text (s : State) (len : Nat) : (s.advance len).text = s.text := rfl
@[simp] theorem State.advance_draws (s : State) (len : Nat) : (s.advance len).draws = s.draws := rfl

/-! ## drawn writes draws only -/

@[simp] theorem State.drawn_params (s : State) : (s.drawn).params = s.params := by unfold State.drawn; split <;> rfl
@[simp] theorem State.drawn_mode (s : State) : (s.drawn).mode = s.mode := by unfold State.drawn; split <;> rfl
@[simp] theorem State.drawn_pc (s : State) : (s.drawn).pc = s.pc := by unfold State.drawn; split <;> rfl
@[simp] theorem State.drawn_x (s : State) : (s.drawn).x = s.x := by unfold State.drawn; split <;> rfl
@[simp] theorem State.drawn_segBase (s : State) : (s.drawn).segBase = s.segBase := by unfold State.drawn; split <;> rfl
@[simp] theorem State.drawn_v (s : State) : (s.drawn).v = s.v := by unfold State.drawn; split <;> rfl
@[simp] theorem State.drawn_k (s : State) : (s.drawn).k = s.k := by unfold State.drawn; split <;> rfl
@[simp] theorem State.drawn_mxcsr (s : State) : (s.drawn).mxcsr = s.mxcsr := by unfold State.drawn; split <;> rfl
@[simp] theorem State.drawn_cr0 (s : State) : (s.drawn).cr0 = s.cr0 := by unfold State.drawn; split <;> rfl
@[simp] theorem State.drawn_cr4 (s : State) : (s.drawn).cr4 = s.cr4 := by unfold State.drawn; split <;> rfl
@[simp] theorem State.drawn_xcr0 (s : State) : (s.drawn).xcr0 = s.xcr0 := by unfold State.drawn; split <;> rfl
@[simp] theorem State.drawn_rflags (s : State) : (s.drawn).rflags = s.rflags := by unfold State.drawn; split <;> rfl
@[simp] theorem State.drawn_cpl (s : State) : (s.drawn).cpl = s.cpl := by unfold State.drawn; split <;> rfl
@[simp] theorem State.drawn_mem (s : State) : (s.drawn).mem = s.mem := by unfold State.drawn; split <;> rfl
@[simp] theorem State.drawn_answers (s : State) : (s.drawn).answers = s.answers := by unfold State.drawn; split <;> rfl
@[simp] theorem State.drawn_fetchFaults (s : State) : (s.drawn).fetchFaults = s.fetchFaults := by unfold State.drawn; split <;> rfl
@[simp] theorem State.drawn_text (s : State) : (s.drawn).text = s.text := by unfold State.drawn; split <;> rfl

/-! ## afterRead writes answers only -/

@[simp] theorem State.afterRead_params (s : State) (rm : RegMem) : (s.afterRead rm).params = s.params := by unfold State.afterRead; split <;> rfl
@[simp] theorem State.afterRead_mode (s : State) (rm : RegMem) : (s.afterRead rm).mode = s.mode := by unfold State.afterRead; split <;> rfl
@[simp] theorem State.afterRead_pc (s : State) (rm : RegMem) : (s.afterRead rm).pc = s.pc := by unfold State.afterRead; split <;> rfl
@[simp] theorem State.afterRead_x (s : State) (rm : RegMem) : (s.afterRead rm).x = s.x := by unfold State.afterRead; split <;> rfl
@[simp] theorem State.afterRead_segBase (s : State) (rm : RegMem) : (s.afterRead rm).segBase = s.segBase := by unfold State.afterRead; split <;> rfl
@[simp] theorem State.afterRead_v (s : State) (rm : RegMem) : (s.afterRead rm).v = s.v := by unfold State.afterRead; split <;> rfl
@[simp] theorem State.afterRead_k (s : State) (rm : RegMem) : (s.afterRead rm).k = s.k := by unfold State.afterRead; split <;> rfl
@[simp] theorem State.afterRead_mxcsr (s : State) (rm : RegMem) : (s.afterRead rm).mxcsr = s.mxcsr := by unfold State.afterRead; split <;> rfl
@[simp] theorem State.afterRead_cr0 (s : State) (rm : RegMem) : (s.afterRead rm).cr0 = s.cr0 := by unfold State.afterRead; split <;> rfl
@[simp] theorem State.afterRead_cr4 (s : State) (rm : RegMem) : (s.afterRead rm).cr4 = s.cr4 := by unfold State.afterRead; split <;> rfl
@[simp] theorem State.afterRead_xcr0 (s : State) (rm : RegMem) : (s.afterRead rm).xcr0 = s.xcr0 := by unfold State.afterRead; split <;> rfl
@[simp] theorem State.afterRead_rflags (s : State) (rm : RegMem) : (s.afterRead rm).rflags = s.rflags := by unfold State.afterRead; split <;> rfl
@[simp] theorem State.afterRead_cpl (s : State) (rm : RegMem) : (s.afterRead rm).cpl = s.cpl := by unfold State.afterRead; split <;> rfl
@[simp] theorem State.afterRead_mem (s : State) (rm : RegMem) : (s.afterRead rm).mem = s.mem := by unfold State.afterRead; split <;> rfl
@[simp] theorem State.afterRead_fetchFaults (s : State) (rm : RegMem) : (s.afterRead rm).fetchFaults = s.fetchFaults := by unfold State.afterRead; split <;> rfl
@[simp] theorem State.afterRead_text (s : State) (rm : RegMem) : (s.afterRead rm).text = s.text := by unfold State.afterRead; split <;> rfl
@[simp] theorem State.afterRead_draws (s : State) (rm : RegMem) : (s.afterRead rm).draws = s.draws := by unfold State.afterRead; split <;> rfl

/-! ## withProgram writes pc, mem and text only -/

@[simp] theorem State.withProgram_params (s : State) (base : BitVec 64) (bs : List Byte) :
    (s.withProgram base bs).params = s.params := rfl
@[simp] theorem State.withProgram_mode (s : State) (base : BitVec 64) (bs : List Byte) :
    (s.withProgram base bs).mode = s.mode := rfl
@[simp] theorem State.withProgram_x (s : State) (base : BitVec 64) (bs : List Byte) :
    (s.withProgram base bs).x = s.x := rfl
@[simp] theorem State.withProgram_segBase (s : State) (base : BitVec 64) (bs : List Byte) :
    (s.withProgram base bs).segBase = s.segBase := rfl
@[simp] theorem State.withProgram_v (s : State) (base : BitVec 64) (bs : List Byte) :
    (s.withProgram base bs).v = s.v := rfl
@[simp] theorem State.withProgram_k (s : State) (base : BitVec 64) (bs : List Byte) :
    (s.withProgram base bs).k = s.k := rfl
@[simp] theorem State.withProgram_mxcsr (s : State) (base : BitVec 64) (bs : List Byte) :
    (s.withProgram base bs).mxcsr = s.mxcsr := rfl
@[simp] theorem State.withProgram_cr0 (s : State) (base : BitVec 64) (bs : List Byte) :
    (s.withProgram base bs).cr0 = s.cr0 := rfl
@[simp] theorem State.withProgram_cr4 (s : State) (base : BitVec 64) (bs : List Byte) :
    (s.withProgram base bs).cr4 = s.cr4 := rfl
@[simp] theorem State.withProgram_xcr0 (s : State) (base : BitVec 64) (bs : List Byte) :
    (s.withProgram base bs).xcr0 = s.xcr0 := rfl
@[simp] theorem State.withProgram_rflags (s : State) (base : BitVec 64) (bs : List Byte) :
    (s.withProgram base bs).rflags = s.rflags := rfl
@[simp] theorem State.withProgram_cpl (s : State) (base : BitVec 64) (bs : List Byte) :
    (s.withProgram base bs).cpl = s.cpl := rfl
@[simp] theorem State.withProgram_answers (s : State) (base : BitVec 64) (bs : List Byte) :
    (s.withProgram base bs).answers = s.answers := rfl
@[simp] theorem State.withProgram_fetchFaults (s : State) (base : BitVec 64) (bs : List Byte) :
    (s.withProgram base bs).fetchFaults = s.fetchFaults := rfl
@[simp] theorem State.withProgram_draws (s : State) (base : BitVec 64) (bs : List Byte) :
    (s.withProgram base bs).draws = s.draws := rfl

/-! ## What each update writes -/

@[simp] theorem State.withProgram_pc (s : State) (base : BitVec 64) (bs : List Byte) :
    (s.withProgram base bs).pc = base := rfl
@[simp] theorem State.withProgram_text (s : State) (base : BitVec 64) (bs : List Byte) :
    (s.withProgram base bs).text = some ⟨base, bs.length⟩ := rfl

@[simp] theorem State.setMxcsr_mxcsr (s : State) (m : BitVec 32) : (s.setMxcsr m).mxcsr = m := rfl
@[simp] theorem State.advance_pc (s : State) (len : Nat) :
    (s.advance len).pc = Mode.truncPc s.mode (s.pc + BitVec.ofNat 64 len) := rfl
@[simp] theorem State.answered_answers (s : State) : s.answered.answers = s.answers.tail := rfl
theorem State.afterRead_answers (s : State) (rm : RegMem) :
    (s.afterRead rm).answers = if isMem rm then s.answers.tail else s.answers := by
  unfold State.afterRead; split <;> rfl
theorem State.drawn_draws (s : State) :
    s.drawn.draws = if s.params.maskedLoadFaults = .either then s.draws + 1 else s.draws := by
  unfold State.drawn; split <;> rfl

@[simp] theorem State.setVreg_vreg_same (s : State) (n : BitVec 5) (r : VecReg) : (s.setVreg n r).vreg n = r := by
  simp [State.vreg, State.setVreg]

theorem State.setVreg_vreg_ne (s : State) {n n' : BitVec 5} (r : VecReg) (h : n' ≠ n) :
    (s.setVreg n r).vreg n' = s.vreg n' := by
  have : n.toNat ≠ n'.toNat := fun e => h (BitVec.eq_of_toNat_eq e.symm)
  simp [State.vreg, State.setVreg, Vector.getElem_set_ne, this]

theorem State.setVreg_vreg (s : State) (n n' : BitVec 5) (r : VecReg) :
    (s.setVreg n r).vreg n' = if n' = n then r else s.vreg n' := by
  by_cases h : n' = n
  · subst h; simp
  · simp [h, s.setVreg_vreg_ne r h]

@[simp] theorem State.setKreg_kreg_same (s : State) (n : BitVec 3) (r : MaskReg) : (s.setKreg n r).kreg n = r := by
  simp [State.kreg, State.setKreg]

theorem State.setKreg_kreg_ne (s : State) {n n' : BitVec 3} (r : MaskReg) (h : n' ≠ n) :
    (s.setKreg n r).kreg n' = s.kreg n' := by
  have : n.toNat ≠ n'.toNat := fun e => h (BitVec.eq_of_toNat_eq e.symm)
  simp [State.kreg, State.setKreg, Vector.getElem_set_ne, this]

theorem State.setKreg_kreg (s : State) (n n' : BitVec 3) (r : MaskReg) :
    (s.setKreg n r).kreg n' = if n' = n then r else s.kreg n' := by
  by_cases h : n' = n
  · subst h; simp
  · simp [h, s.setKreg_kreg_ne r h]

/-! ## An accessor sees only the field it reads -/

@[simp] theorem State.setVreg_kreg (s : State) (n : BitVec 5) (r : VecReg) (i : BitVec 3) : (s.setVreg n r).kreg i = s.kreg i := by
  simp [State.kreg]
@[simp] theorem State.setKreg_vreg (s : State) (n : BitVec 3) (r : MaskReg) (i : BitVec 5) : (s.setKreg n r).vreg i = s.vreg i := by
  simp [State.vreg]
@[simp] theorem State.setMxcsr_vreg (s : State) (m : BitVec 32) (i : BitVec 5) : (s.setMxcsr m).vreg i = s.vreg i := by
  simp [State.vreg]
@[simp] theorem State.setMxcsr_kreg (s : State) (m : BitVec 32) (i : BitVec 3) : (s.setMxcsr m).kreg i = s.kreg i := by
  simp [State.kreg]
@[simp] theorem State.answered_vreg (s : State) (i : BitVec 5) : (s.answered).vreg i = s.vreg i := by
  simp [State.vreg]
@[simp] theorem State.answered_kreg (s : State) (i : BitVec 3) : (s.answered).kreg i = s.kreg i := by
  simp [State.kreg]
@[simp] theorem State.advance_vreg (s : State) (len : Nat) (i : BitVec 5) : (s.advance len).vreg i = s.vreg i := by
  simp [State.vreg]
@[simp] theorem State.advance_kreg (s : State) (len : Nat) (i : BitVec 3) : (s.advance len).kreg i = s.kreg i := by
  simp [State.kreg]
@[simp] theorem State.drawn_vreg (s : State) (i : BitVec 5) : (s.drawn).vreg i = s.vreg i := by
  simp [State.vreg]
@[simp] theorem State.drawn_kreg (s : State) (i : BitVec 3) : (s.drawn).kreg i = s.kreg i := by
  simp [State.kreg]
@[simp] theorem State.afterRead_vreg (s : State) (rm : RegMem) (i : BitVec 5) : (s.afterRead rm).vreg i = s.vreg i := by
  simp [State.vreg]
@[simp] theorem State.afterRead_kreg (s : State) (rm : RegMem) (i : BitVec 3) : (s.afterRead rm).kreg i = s.kreg i := by
  simp [State.kreg]
@[simp] theorem State.withProgram_vreg (s : State) (base : BitVec 64) (bs : List Byte) (i : BitVec 5) :
    (s.withProgram base bs).vreg i = s.vreg i := rfl
@[simp] theorem State.withProgram_kreg (s : State) (base : BitVec 64) (bs : List Byte) (i : BitVec 3) :
    (s.withProgram base bs).kreg i = s.kreg i := rfl

/-- Two states with the same fields are the same state. -/
theorem State.ext_of_fields {s t : State} (h1 : s.params = t.params) (h2 : s.mode = t.mode) (h3 : s.pc = t.pc)
    (h4 : s.x = t.x) (h5 : s.segBase = t.segBase) (h6 : s.v = t.v) (h7 : s.k = t.k) (h8 : s.mxcsr = t.mxcsr)
    (h9 : s.cr0 = t.cr0) (h10 : s.cr4 = t.cr4) (h11 : s.xcr0 = t.xcr0) (h12 : s.rflags = t.rflags)
    (h13 : s.cpl = t.cpl) (h14 : s.mem = t.mem) (h15 : s.answers = t.answers)
    (h16 : s.fetchFaults = t.fetchFaults) (h17 : s.text = t.text) (h18 : s.draws = t.draws) : s = t := by
  cases s; cases t; simp_all

end Sys2Proof.Machine
end

