-- ==== Sys2Proof/Laws/Exec.lean ====
section
/-! SUPPORT. What each shared operation can do, said once: the view of exec by form, the checks, the comparison, the
three forms, and the step. -/

namespace Sys2Proof.Machine

/-! ## exec by form -/

/-- The meaning of a form. -/
def Form.run (f : Form) (s : State) : Result :=
  match f with
  | .legacy o imm => runLegacy o imm s
  | .vex o imm => runVex o imm s
  | .evex o imm => runEvex o imm s

/-- Every instruction runs as its form. -/
theorem exec_eq_run (i : Instr) (s : State) : exec i s = Form.run i.form s := by cases i <;> rfl

theorem exec_legacy {i : Instr} {o : LegacyOps} {imm : BitVec 8} (h : i.form = .legacy o imm) (s : State) :
    exec i s = runLegacy o imm s := by rw [exec_eq_run, h]; rfl

theorem exec_vex {i : Instr} {o : VexOps} {imm : BitVec 8} (h : i.form = .vex o imm) (s : State) :
    exec i s = runVex o imm s := by rw [exec_eq_run, h]; rfl

theorem exec_evex {i : Instr} {o : EvexOps} {imm : BitVec 8} (h : i.form = .evex o imm) (s : State) :
    exec i s = runEvex o imm s := by rw [exec_eq_run, h]; rfl

/-! ## The checks -/

theorem State.checked_of_ok {s : State} {f : FormKind} {ok : Bool} {imm : BitVec 8} (he : s.enabled f = true)
    (ho : ok = true) (hi : s.refusesImm f imm = false) (ht : s.ts = false) (body : Result) :
    s.checked f ok imm body = body := by
  simp [State.checked, he, ho, hi, ht]

/-- The checks answer as the body does, or they stop with the state unchanged. -/
theorem State.checked_cases (s : State) (f : FormKind) (ok : Bool) (imm : BitVec 8) (body : Result) :
    s.checked f ok imm body = raise .ud s ∨ s.checked f ok imm body = .refused .reservedImm ∨
      s.checked f ok imm body = raise .nm s ∨
      (s.enabled f = true ∧ ok = true ∧ s.refusesImm f imm = false ∧ s.ts = false ∧ s.checked f ok imm body = body) := by
  unfold State.checked
  split
  · exact .inl rfl
  · next h1 =>
    split
    · exact .inr (.inl rfl)
    · next h2 =>
      split
      · exact .inr (.inr (.inl rfl))
      · next h3 => simp_all

/-- When the checks let a next state through, every check passed and the body answers it. -/
theorem State.checked_next_iff {s t : State} {f : FormKind} {ok : Bool} {imm : BitVec 8} {body : Result} :
    s.checked f ok imm body = .next t ↔
      (s.enabled f = true ∧ ok = true ∧ s.refusesImm f imm = false ∧ s.ts = false) ∧ body = .next t := by
  constructor
  · intro h
    rcases s.checked_cases f ok imm body with h' | h' | h' | ⟨h1, h2, h3, h4, h'⟩ <;> rw [h'] at h
    · cases h
    · cases h
    · cases h
    · exact ⟨⟨h1, h2, h3, h4⟩, h⟩
  · rintro ⟨⟨h1, h2, h3, h4⟩, h⟩
    rw [State.checked_of_ok h1 h2 h3 h4, h]

/-- When the checks let a next state through, the body answers it. -/
theorem State.checked_next {s t : State} {f : FormKind} {ok : Bool} {imm : BitVec 8} {body : Result}
    (h : s.checked f ok imm body = .next t) : body = .next t := (State.checked_next_iff.mp h).2

/-- When a fault comes through, it is #UD or #NM with the state unchanged, or the body's. -/
theorem State.checked_fault {s t : State} {f : FormKind} {ok : Bool} {imm : BitVec 8} {body : Result} {e : Exception}
    (h : s.checked f ok imm body = .fault (.exception e t)) : t = s ∨ body = .fault (.exception e t) := by
  rcases s.checked_cases f ok imm body with h' | h' | h' | ⟨-, -, -, -, h'⟩ <;> rw [h'] at h
  · cases h; exact .inl rfl
  · cases h
  · cases h; exact .inl rfl
  · exact .inr h

/-! ## The comparison -/

/-- The three outcomes of Compare (40_predicates.md R140). -/
theorem compareOp_cases (a b : Word) (p : BitVec 5) (sae os : Bool) (mx : BitVec 32) :
    (sae = true ∧ compareOp a b p sae os mx = .done (compareResult a b p mx) mx) ∨
    (sae = false ∧ unmasked a b p mx = true ∧
      compareOp a b p sae os mx = .raises (if os then .xm else .ud) (flagged a b p mx)) ∨
    (sae = false ∧ unmasked a b p mx = false ∧
      compareOp a b p sae os mx = .done (compareResult a b p mx) (flagged a b p mx)) := by
  unfold compareOp
  cases sae
  · cases h : unmasked a b p mx <;> simp
  · simp

/-- Flags are only set, and no bit but IE and DE changes. -/
theorem flagged_eq (a b : Word) (p : BitVec 5) (mx : BitVec 32) :
    flagged a b p mx = mx ∨ flagged a b p mx = setIE mx ∨ flagged a b p mx = setDE mx ∨
      flagged a b p mx = setDE (setIE mx) := by
  unfold flagged flagInvalid
  split <;> split <;> simp

/-! ## What a form's next state and fault are -/

/-- A legacy form that answers a next state wrote its flags, its element and `pc`. -/
theorem runLegacy_next {o : LegacyOps} {imm : BitVec 8} {s t : State} (h : runLegacy o imm s = .next t) :
    ∃ r mx, (mx = s.mxcsr ∨ ∃ a b p, mx = flagged a b p s.mxcsr) ∧
      t = legacyDone s o (Form.legacy o imm).length r mx := by
  have h := State.checked_next h
  split at h
  · cases h
  · next b _ =>
    unfold legacyCompare at h
    rcases compareOp_cases (elem0 (s.vreg (destVec (rexBits o.rex) o.t))) b (predicateOf .legacy imm) false
      s.osxmmexcpt s.mxcsr with ⟨hs, -⟩ | ⟨-, -, hc⟩ | ⟨-, -, hc⟩
    · cases hs
    · rw [hc] at h; cases h
    · rw [hc] at h; cases h; exact ⟨_, _, .inr ⟨_, _, _, rfl⟩, rfl⟩

/-- A VEX form that answers a next state wrote its flags, its register and `pc`. -/
theorem runVex_next {o : VexOps} {imm : BitVec 8} {s t : State} (h : runVex o imm s = .next t) :
    ∃ r mx, (mx = s.mxcsr ∨ ∃ a b p, mx = flagged a b p s.mxcsr) ∧
      t = vexDone s o (Form.vex o imm).length r mx := by
  have h := State.checked_next h
  split at h
  · cases h
  · next b _ =>
    unfold vexCompare at h
    rcases compareOp_cases (elem0 (s.vreg (vexSrc1 o))) b (predicateOf .vex imm) false
      s.osxmmexcpt s.mxcsr with ⟨hs, -⟩ | ⟨-, -, hc⟩ | ⟨-, -, hc⟩
    · cases hs
    · rw [hc] at h; cases h
    · rw [hc] at h; cases h; exact ⟨_, _, .inr ⟨_, _, _, rfl⟩, rfl⟩

/-- An EVEX form that answers a next state wrote its flags, one bit of its mask register and `pc`. -/
theorem runEvex_next {o : EvexOps} {imm : BitVec 8} {s t : State} (h : runEvex o imm s = .next t) :
    ∃ u r mx, (mx = s.mxcsr ∨ ∃ a b p, mx = flagged a b p s.mxcsr) ∧ (u = s ∨ u = s.answered ∨ u = s.drawn ∨ u = s.drawn.answered) ∧
      t = evexWritten (u.setMxcsr mx) o (Form.evex o imm).length (boolMask r) := by
  have h := State.checked_next h
  split at h
  · split at h
    · cases h
    · next b _ =>
      have hu : s.afterRead o.t.rm = s ∨ s.afterRead o.t.rm = s.answered ∨ s.afterRead o.t.rm = s.drawn ∨
          s.afterRead o.t.rm = s.drawn.answered := by
        unfold State.afterRead; split <;> simp
      unfold evexCompare at h
      rcases compareOp_cases (elem0 (s.vreg (evexSrc1 o.evex))) b (predicateOf .evex imm) (evexSae o)
        s.osxmmexcpt s.mxcsr with ⟨-, hc⟩ | ⟨-, -, hc⟩ | ⟨-, -, hc⟩
      · rw [hc] at h; cases h; exact ⟨_, _, _, .inl rfl, hu, rfl⟩
      · rw [hc] at h; cases h
      · rw [hc] at h; cases h; exact ⟨_, _, _, .inr ⟨_, _, _, rfl⟩, hu, rfl⟩
  · have hz : ∀ u : State, u.mxcsr = s.mxcsr → u = u.setMxcsr s.mxcsr := fun u hu => by rw [← hu]; rfl
    unfold evexMaskedOff at h
    split at h
    · cases h; exact ⟨s, false, s.mxcsr, .inl rfl, .inl rfl, rfl⟩
    · split at h
      · split at h
        · cases h
        · cases h; exact ⟨s.drawn.answered, false, s.mxcsr, .inl rfl, .inr (.inr (.inr rfl)), by rw [← hz _ (by simp)]; rfl⟩
      · cases h; exact ⟨s.drawn, false, s.mxcsr, .inl rfl, .inr (.inr (.inl rfl)), by rw [← hz _ (by simp)]; rfl⟩

/-- A form's fault carries the state unchanged, or with the flags that an unmasked condition set. -/
theorem Form.run_fault {f : Form} {s t : State} {e : Exception} (h : Form.run f s = .fault (.exception e t)) :
    t = s ∨ ∃ a b p, t = s.setMxcsr (flagged a b p s.mxcsr) ∧ e = if s.osxmmexcpt then .xm else .ud := by
  match f with
  | .legacy o imm =>
    rcases State.checked_fault h with h | h
    · exact .inl h
    · split at h
      · cases h; exact .inl rfl
      · next b _ =>
        unfold legacyCompare at h
        rcases compareOp_cases (elem0 (s.vreg (destVec (rexBits o.rex) o.t))) b (predicateOf .legacy imm) false
          s.osxmmexcpt s.mxcsr with ⟨-, hc⟩ | ⟨-, -, hc⟩ | ⟨-, -, hc⟩ <;> rw [hc] at h <;> cases h
        exact .inr ⟨_, _, _, rfl, rfl⟩
  | .vex o imm =>
    rcases State.checked_fault h with h | h
    · exact .inl h
    · split at h
      · cases h; exact .inl rfl
      · next b _ =>
        unfold vexCompare at h
        rcases compareOp_cases (elem0 (s.vreg (vexSrc1 o))) b (predicateOf .vex imm) false
          s.osxmmexcpt s.mxcsr with ⟨-, hc⟩ | ⟨-, -, hc⟩ | ⟨-, -, hc⟩ <;> rw [hc] at h <;> cases h
        exact .inr ⟨_, _, _, rfl, rfl⟩
  | .evex o imm =>
    rcases State.checked_fault h with h | h
    · exact .inl h
    · split at h
      · split at h
        · cases h; exact .inl rfl
        · next b _ =>
          unfold evexCompare at h
          rcases compareOp_cases (elem0 (s.vreg (evexSrc1 o.evex))) b (predicateOf .evex imm) (evexSae o)
            s.osxmmexcpt s.mxcsr with ⟨-, hc⟩ | ⟨-, -, hc⟩ | ⟨-, -, hc⟩ <;> rw [hc] at h <;> cases h
          exact .inr ⟨_, _, _, rfl, rfl⟩
      · unfold evexMaskedOff at h
        split at h
        · cases h
        · split at h
          · split at h
            · cases h; exact .inl rfl
            · cases h
          · cases h

/-! ## The step -/

/-- A step that answers a next state ran the instruction its bytes decode to. -/
theorem step_next {s t : State} (h : step s = .next t) :
    ∃ i rest, decode s.mode s.fetch.1 = .instr i rest ∧ exec i s = .next t := by
  unfold step stepDecoded at h
  split at h
  · next i rest hd => exact ⟨i, rest, hd, h⟩
  · next r _ =>
    cases r <;> simp only [stepReject] at h <;> try cases h
    unfold stepShort at h
    split at h <;> cases h

end Sys2Proof.Machine
end

