-- ==== Sys2Proof/Laws/Fields.lean ====
section
/-! SUPPORT. The fields of the encoding bytes: what the encoder puts in, the decoder takes out. -/

namespace Sys2Proof

/-! ## Prefix bytes -/

theorem Rex.ofByte_byte (r : Rex) : Rex.ofByte r.byte = r := by
  obtain ⟨w, r, x, b⟩ := r; revert w r x b; decide

theorem Rex.isRexByte_byte (r : Rex) : isRexByte r.byte = true := by
  obtain ⟨w, r, x, b⟩ := r; revert w r x b; decide

theorem Vex2.ofByte_byte (v : Vex2) : Vex2.ofByte v.byte = v := by
  obtain ⟨r, vvvv, l⟩ := v; revert r vvvv l; decide

theorem Vex2.byte_pp (v : Vex2) : v.byte.extractLsb' 0 2 = 3#2 := by
  obtain ⟨r, vvvv, l⟩ := v; revert r vvvv l; decide

/-- The two bytes of the three-byte prefix are read field by field, so each byte is checked on its own. -/
theorem Vex3.byte1_fields : ∀ r x b : Bool,
    let v1 : Byte := BitVec.ofBool (!r) ++ BitVec.ofBool (!x) ++ BitVec.ofBool (!b) ++ 1#5
    (!v1.getLsbD 7) = r ∧ (!v1.getLsbD 6) = x ∧ (!v1.getLsbD 5) = b ∧ v1.extractLsb' 0 5 = 1#5 := by decide

theorem Vex3.byte2_fields : ∀ (w : Bool) (vvvv : BitVec 4) (l : Bool),
    let v2 : Byte := BitVec.ofBool w ++ ~~~vvvv ++ BitVec.ofBool l ++ 3#2
    v2.getLsbD 7 = w ∧ ~~~(v2.extractLsb' 3 4) = vvvv ∧ v2.getLsbD 2 = l ∧ v2.extractLsb' 0 2 = 3#2 := by decide

theorem Vex3.ofBytes_bytes (v : Vex3) : Vex3.ofBytes v.byte1 v.byte2 = v := by
  obtain ⟨r, x, b, w, vvvv, l⟩ := v
  have h1 := Vex3.byte1_fields r x b
  have h2 := Vex3.byte2_fields w vvvv l
  simp only [Vex3.ofBytes, Vex3.byte1, Vex3.byte2, Vex3.mk.injEq]
  exact ⟨h1.1, h1.2.1, h1.2.2.1, h2.1, h2.2.1, h2.2.2.1⟩

theorem Evex.byte0_fields : ∀ x b : Bool,
    let p0 : Byte := 1#1 ++ BitVec.ofBool (!x) ++ BitVec.ofBool (!b) ++ 1#1 ++ 0#2 ++ 1#2
    (!p0.getLsbD 6) = x ∧ (!p0.getLsbD 5) = b ∧ p0.extractLsb' 0 2 = 1#2 ∧ p0.extractLsb' 2 2 = 0#2 ∧
      p0.getLsbD 7 = true ∧ p0.getLsbD 4 = true := by decide

theorem Evex.byte1_fields : ∀ vvvv : BitVec 4,
    let p1 : Byte := 1#1 ++ ~~~vvvv ++ 1#1 ++ 3#2
    ~~~(p1.extractLsb' 3 4) = vvvv ∧ p1.extractLsb' 0 2 = 3#2 ∧ p1.getLsbD 2 = true ∧ p1.getLsbD 7 = true := by decide

theorem Evex.byte2_fields : ∀ (ll : BitVec 2) (bc vHi : Bool) (aaa : BitVec 3),
    let p2 : Byte := 0#1 ++ ll ++ BitVec.ofBool bc ++ BitVec.ofBool (!vHi) ++ aaa
    p2.extractLsb' 5 2 = ll ∧ p2.getLsbD 4 = bc ∧ (!p2.getLsbD 3) = vHi ∧ p2.extractLsb' 0 3 = aaa ∧
      p2.getLsbD 7 = false := by decide

theorem Evex.ofBytes_bytes (e : Evex) : Evex.ofBytes e.byte0 e.byte1 e.byte2 = e := by
  obtain ⟨x, b, vvvv, ll, bc, vHi, aaa⟩ := e
  have h0 := Evex.byte0_fields x b
  have h1 := Evex.byte1_fields vvvv
  have h2 := Evex.byte2_fields ll bc vHi aaa
  simp only [Evex.ofBytes, Evex.byte0, Evex.byte1, Evex.byte2, Evex.mk.injEq]
  exact ⟨h0.1, h0.2.1, h1.1, h2.1, h2.2.1, h2.2.2.1, h2.2.2.2.1⟩

/-! ## ModRM and SIB bytes -/

theorem modRm_fields : ∀ (md : BitVec 2) (reg rm : BitVec 3),
    (md ++ reg ++ rm : Byte).extractLsb' 6 2 = md ∧ (md ++ reg ++ rm : Byte).extractLsb' 3 3 = reg ∧
      (md ++ reg ++ rm : Byte).extractLsb' 0 3 = rm := by decide

/-! ## Displacements -/

theorem join16 (d : BitVec 16) : d.extractLsb' 8 8 ++ d.extractLsb' 0 8 = d := by
  apply BitVec.eq_of_getLsbD_eq
  intro i hi
  simp only [BitVec.getLsbD_append, BitVec.getLsbD_extractLsb']
  grind

theorem join32 (d : BitVec 32) :
    d.extractLsb' 24 8 ++ d.extractLsb' 16 8 ++ d.extractLsb' 8 8 ++ d.extractLsb' 0 8 = d := by
  apply BitVec.eq_of_getLsbD_eq
  intro i hi
  simp only [BitVec.getLsbD_append, BitVec.getLsbD_extractLsb']
  grind

theorem take16_bytes16 (d : BitVec 16) (rest : List Byte) : take16 (bytes16 d ++ rest) = some (d, rest) := by
  simp only [bytes16, take16, List.cons_append, List.nil_append, join16]

theorem take32_bytes32 (d : BitVec 32) (rest : List Byte) : take32 (bytes32 d ++ rest) = some (d, rest) := by
  simp only [bytes32, take32, List.cons_append, List.nil_append, join32]

theorem takeDisp_bytes (d : Disp) (rest : List Byte) : takeDisp d.md (d.bytes ++ rest) = some (d, rest) := by
  cases d with
  | none => rfl
  | d8 d => rfl
  | d32 d => simp [takeDisp, Disp.md, Disp.bytes, take32_bytes32]

theorem takeDisp16_bytes (d : Disp16) (rest : List Byte) : takeDisp16 d.md (d.bytes ++ rest) = some (d, rest) := by
  cases d with
  | none => rfl
  | d8 d => rfl
  | d16 d => simp [takeDisp16, Disp16.md, Disp16.bytes, take16_bytes16]

/-- A displacement's `mod` is never 11b. -/
theorem Disp.md_ne (d : Disp) : d.md ≠ 3#2 := by cases d <;> simp [Disp.md]

/-- A displacement's `mod` is 00b only when there is none. -/
theorem Disp.md_eq_zero (d : Disp) : d.md = 0#2 ↔ d = .none := by cases d <;> simp [Disp.md]

theorem Disp16.md_ne (d : Disp16) : d.md ≠ 3#2 := by cases d <;> simp [Disp16.md]

theorem Disp16.md_eq_zero (d : Disp16) : d.md = 0#2 ↔ d = .none := by cases d <;> simp [Disp16.md]

/-! ## Lengths -/

theorem Disp.bytes_length (d : Disp) : d.bytes.length = d.size := by cases d <;> rfl

theorem Disp16.bytes_length (d : Disp16) : d.bytes.length = d.size := by cases d <;> rfl

theorem MemForm.bytes_length (f : MemForm) : f.bytes.length = f.size := by
  cases f <;> simp [MemForm.bytes, MemForm.size, Disp.bytes_length, Disp16.bytes_length, bytes32, bytes16, Nat.add_comm]

theorem ModRM.bytes_length (t : ModRM) : t.bytes.length = 1 + t.rm.size := by
  obtain ⟨reg, rm⟩ := t
  cases rm <;> simp [ModRM.bytes, RegMem.size, MemForm.bytes_length, Nat.add_comm]

theorem Prefixes.bytes_length (p : Prefixes) : p.bytes.length = p.count := by
  obtain ⟨seg, a67⟩ := p
  cases seg <;> cases a67 <;> rfl

end Sys2Proof
end

