-- ==== Sys2Proof/Laws/Memory.lean ====
section
/-! SUPPORT. Memory: read after write, and every operation keeps the canonical form. -/

namespace Sys2Proof.Machine

/-- A memory whose addresses are all above `a` does not list `a`. -/
theorem Memory.read_of_above {a : Nat} {mem : List Host.Cell} (h : Memory.above a mem = true) :
    Memory.read mem a = Memory.unlisted := by
  induction mem with
  | nil => rfl
  | cons c rest ih =>
    simp only [Memory.above, List.all_cons, Bool.and_eq_true, decide_eq_true_eq] at h
    have hne : a ≠ c.1 := Nat.ne_of_lt h.1
    simp only [Memory.read, hne, if_false]
    exact ih h.2

theorem Memory.above_of_lt {a b : Nat} {mem : List Host.Cell} (h : Memory.above b mem = true) (hab : a < b) :
    Memory.above a mem = true := by
  simp only [Memory.above, List.all_eq_true, decide_eq_true_eq] at h ⊢
  exact fun c hc => Nat.lt_trans hab (h c hc)

theorem Memory.read_push_same (a : Nat) (x : Byte) {rest : List Host.Cell} (h : Memory.above a rest = true) :
    Memory.read (Memory.push a x rest) a = x := by
  unfold Memory.push
  split
  · next hx => rw [Memory.read_of_above h, hx]
  · simp [Memory.read]

theorem Memory.read_push_ne {a b : Nat} (x : Byte) (rest : List Host.Cell) (h : b ≠ a) :
    Memory.read (Memory.push a x rest) b = Memory.read rest b := by
  unfold Memory.push
  split
  · rfl
  · simp [Memory.read, h]

/-- A read after a write to the same address gives the byte written. -/
theorem Memory.read_write_same {mem : List Host.Cell} (a : Nat) (x : Byte) (h : Memory.wf mem = true) :
    Memory.read (Memory.write mem a x) a = x := by
  induction mem with
  | nil => exact Memory.read_push_same a x rfl
  | cons c rest ih =>
    obtain ⟨b, y⟩ := c
    simp only [Memory.wf, Bool.and_eq_true] at h
    simp only [Memory.write]
    split
    · next hlt =>
      refine Memory.read_push_same a x ?_
      have := Memory.above_of_lt h.1.2 hlt
      simp only [Memory.above, List.all_cons, Bool.and_eq_true, decide_eq_true_eq] at this ⊢
      exact ⟨hlt, this⟩
    · split
      · next heq => exact Memory.read_push_same a x (heq ▸ h.1.2)
      · next hne => simp only [Memory.read, hne, if_false]; exact ih h.2

/-- A write leaves every other address alone. -/
theorem Memory.read_write_ne (mem : List Host.Cell) {a b : Nat} (x : Byte) (hne : b ≠ a) :
    Memory.read (Memory.write mem a x) b = Memory.read mem b := by
  induction mem with
  | nil => exact Memory.read_push_ne x [] hne
  | cons c rest ih =>
    obtain ⟨d, y⟩ := c
    simp only [Memory.write]
    split
    · exact Memory.read_push_ne x _ hne
    · split
      · next heq => rw [Memory.read_push_ne x _ hne]; simp [Memory.read, ← heq, hne]
      · simp only [Memory.read]; split
        · rfl
        · exact ih

theorem Memory.above_push {a b : Nat} (x : Byte) {rest : List Host.Cell} (hr : Memory.above b rest = true)
    (h : b < a) : Memory.above b (Memory.push a x rest) = true := by
  unfold Memory.push
  split
  · exact hr
  · simp only [Memory.above, List.all_cons, Bool.and_eq_true, decide_eq_true_eq] at hr ⊢
    exact ⟨h, hr⟩

theorem Memory.above_write {mem : List Host.Cell} {a b : Nat} (x : Byte) (hm : Memory.above b mem = true)
    (h : b < a) : Memory.above b (Memory.write mem a x) = true := by
  induction mem with
  | nil => exact Memory.above_push x rfl h
  | cons c rest ih =>
    obtain ⟨d, y⟩ := c
    have hm' := hm
    simp only [Memory.above, List.all_cons, Bool.and_eq_true, decide_eq_true_eq] at hm
    simp only [Memory.write]
    split
    · exact Memory.above_push x hm' h
    · split
      · exact Memory.above_push x hm.2 h
      · have := ih hm.2
        simp only [Memory.above, List.all_cons, Bool.and_eq_true, decide_eq_true_eq] at this ⊢
        exact ⟨hm.1, this⟩

theorem Memory.wf_push {a : Nat} (x : Byte) {rest : List Host.Cell} (hw : Memory.wf rest = true)
    (ha : Memory.above a rest = true) : Memory.wf (Memory.push a x rest) = true := by
  unfold Memory.push
  split
  · exact hw
  · next hx => simp [Memory.wf, ha, hw, hx]

/-- A write keeps the canonical form. -/
theorem Memory.wf_write {mem : List Host.Cell} (a : Nat) (x : Byte) (h : Memory.wf mem = true) :
    Memory.wf (Memory.write mem a x) = true := by
  induction mem with
  | nil => exact Memory.wf_push x rfl rfl
  | cons c rest ih =>
    obtain ⟨b, y⟩ := c
    have h' := h
    simp only [Memory.wf, Bool.and_eq_true] at h
    simp only [Memory.write]
    split
    · next hlt =>
      refine Memory.wf_push x h' ?_
      have := Memory.above_of_lt h.1.2 hlt
      simp only [Memory.above, List.all_cons, Bool.and_eq_true, decide_eq_true_eq] at this ⊢
      exact ⟨hlt, this⟩
    · next hge =>
      split
      · next heq => exact Memory.wf_push x h.2 (heq ▸ h.1.2)
      · next hne =>
        have hlt : b < a := by omega
        simp only [Memory.wf, Bool.and_eq_true]
        exact ⟨⟨h.1.1, Memory.above_write x h.1.2 hlt⟩, ih h.2⟩

/-- Writing bytes keeps the canonical form. -/
theorem Memory.wf_writeBytes {mem : List Host.Cell} (f : Nat → Nat) (bs : List Byte) (i : Nat)
    (h : Memory.wf mem = true) : Memory.wf (Memory.writeBytes mem f i bs) = true := by
  induction bs generalizing mem i with
  | nil => exact h
  | cons b bs ih => exact ih (i + 1) (Memory.wf_write (f i) b h)

/-- Writing bytes leaves every other address alone. -/
theorem Memory.read_writeBytes_ne (mem : List Host.Cell) (f : Nat → Nat) (bs : List Byte) (i : Nat) {a : Nat}
    (h : ∀ j, j < bs.length → a ≠ f (i + j)) : Memory.read (Memory.writeBytes mem f i bs) a = Memory.read mem a := by
  induction bs generalizing mem i with
  | nil => rfl
  | cons b bs ih =>
    have hrest : ∀ j, j < bs.length → a ≠ f (i + 1 + j) := fun j hj => by
      have := h (j + 1) (by simpa using hj)
      rwa [show i + 1 + j = i + (j + 1) by omega]
    rw [Memory.writeBytes, ih _ _ hrest]
    exact Memory.read_write_ne _ _ (h 0 (by simp))

/-- A read after writing bytes at different addresses gives the byte written there. -/
theorem Memory.read_writeBytes_at {mem : List Host.Cell} (f : Nat → Nat) (bs : List Byte) (i : Nat)
    (hw : Memory.wf mem = true) (hf : ∀ j k, j < k → k < bs.length → f (i + j) ≠ f (i + k)) {j : Nat}
    (hj : j < bs.length) : Memory.read (Memory.writeBytes mem f i bs) (f (i + j)) = bs[j] := by
  induction bs generalizing mem i j with
  | nil => simp at hj
  | cons b bs ih =>
    rw [Memory.writeBytes]
    cases j with
    | zero =>
      rw [Memory.read_writeBytes_ne, Nat.add_zero, Memory.read_write_same _ _ hw, List.getElem_cons_zero]
      intro k hk
      have := hf 0 (k + 1) (by omega) (by simpa using hk)
      rwa [show i + (k + 1) = i + 1 + k by omega] at this
    | succ j =>
      rw [show i + (j + 1) = i + 1 + j by omega, List.getElem_cons_succ]
      refine ih (i + 1) (Memory.wf_write _ _ hw) (fun a c hac hc => ?_) (by simpa using hj)
      have := hf (a + 1) (c + 1) (by omega) (by simpa using hc)
      rwa [show i + (a + 1) = i + 1 + a by omega, show i + (c + 1) = i + 1 + c by omega] at this

/-- The bytes of an access of at most `2 ^ 32` bytes lie at different linear addresses. -/
theorem State.linear_ne (s : State) (g : Seg) (off : BitVec 64) {j k : Nat} (hjk : j < k) (hk : k < 2 ^ 32) :
    s.linear g off j ≠ s.linear g off k := by
  unfold State.linear Mode.linearSize
  split <;> omega

/-! ## Launches -/

/-- A program's launch keeps memory canonical. -/
theorem State.withProgram_mem_wf (s : State) (base : BitVec 64) (bs : List Byte) (h : Memory.wf s.mem = true) :
    Memory.wf (s.withProgram base bs).mem = true := Memory.wf_writeBytes _ bs 0 h

/-- A program's launch places its bytes at `base`. -/
theorem State.withProgram_read (s : State) (base : BitVec 64) {bs : List Byte} (h : Memory.wf s.mem = true)
    (hn : bs.length ≤ 2 ^ 32) {j : Nat} (hj : j < bs.length) :
    Memory.read (s.withProgram base bs).mem (s.linear .cs base j) = bs[j] := by
  have := Memory.read_writeBytes_at (fun i => s.linear .cs base i) bs 0 h
    (fun a c hac hc => by
      simpa only [Nat.zero_add] using s.linear_ne .cs base hac (Nat.lt_of_lt_of_le hc hn)) hj
  simp only [Nat.zero_add] at this
  exact this

/-- A program's launch leaves every byte outside the program alone. -/
theorem State.withProgram_read_outside (s : State) (base : BitVec 64) (bs : List Byte) {a : Nat}
    (h : ∀ j, j < bs.length → a ≠ s.linear .cs base j) :
    Memory.read (s.withProgram base bs).mem a = Memory.read s.mem a :=
  Memory.read_writeBytes_ne s.mem _ bs 0 fun j hj => by simpa only [Nat.zero_add] using h j hj

/-- A launch keeps memory canonical. -/
theorem State.withBytes_mem_wf (s : State) (bs : List Byte) (h : Memory.wf s.mem = true) :
    Memory.wf (s.withBytes bs).mem = true := Memory.wf_writeBytes _ bs 0 h

/-- The memory of the reset state is canonical. -/
theorem State.reset_mem_wf : Memory.wf State.reset.mem = true := rfl

end Sys2Proof.Machine
end

