-- ==== Sys2Proof/Laws/PerInstr.lean ====
section
/-! SUPPORT. Facts of every instruction as syntax, one lemma per constructor. -/

namespace Sys2Proof.Laws

/-- The encoded form an instruction stands for has its operands, its bytes, its length and its well-formedness. -/
def Encoding.Statement (i : Instr) : Prop :=
  i.core.form = i.form ∧ i.core.core = i.core ∧ encode i.core = encode i ∧ i.core.length = i.length ∧
    ∀ m, i.core.wellFormed m = i.wellFormed m

/-- All of it follows from the form. -/
theorem Encoding.of_form {i : Instr} (h : i.form.instr.form = i.form) : Encoding.Statement i := by
  have hc : i.core.form = i.form := h
  refine ⟨hc, ?_, ?_, ?_, fun m => ?_⟩
  · unfold Instr.core; rw [h]
  · unfold encode; rw [hc]
  · unfold Instr.length; rw [hc]
  · unfold Instr.wellFormed; rw [hc]

/-- A form is the form of its encoding row. -/
theorem Form.instr_form (f : Form) : f.instr.form = f := by
  match f with
  | .legacy ⟨_, none, _⟩ _ => rfl
  | .legacy ⟨_, some _, _⟩ _ => rfl
  | .vex ⟨_, .two _, _⟩ _ => rfl
  | .vex ⟨_, .three _, _⟩ _ => rfl
  | .evex ⟨_, _, _⟩ _ => rfl

theorem Encoding.cmpsd (p : Prefixes) (t : ModRM) (imm : BitVec 8) : Encoding.Statement (.cmpsd p t imm) :=
  Encoding.of_form (Form.instr_form _)

theorem Encoding.cmpsdRex (p : Prefixes) (rex : Rex) (t : ModRM) (imm : BitVec 8) :
    Encoding.Statement (.cmpsdRex p rex t imm) := Encoding.of_form (Form.instr_form _)

theorem Encoding.vcmpsdVex2 (p : Prefixes) (vex : Vex2) (t : ModRM) (imm : BitVec 8) :
    Encoding.Statement (.vcmpsdVex2 p vex t imm) := Encoding.of_form (Form.instr_form _)

theorem Encoding.vcmpsdVex3 (p : Prefixes) (vex : Vex3) (t : ModRM) (imm : BitVec 8) :
    Encoding.Statement (.vcmpsdVex3 p vex t imm) := Encoding.of_form (Form.instr_form _)

theorem Encoding.vcmpsdEvex (p : Prefixes) (evex : Evex) (t : ModRM) (imm : BitVec 8) :
    Encoding.Statement (.vcmpsdEvex p evex t imm) := Encoding.of_form (Form.instr_form _)

theorem Encoding.cmpeqsd (o : LegacyOps) : Encoding.Statement (.cmpeqsd o) := Encoding.of_form (Form.instr_form _)

theorem Encoding.cmpltsd (o : LegacyOps) : Encoding.Statement (.cmpltsd o) := Encoding.of_form (Form.instr_form _)

theorem Encoding.cmplesd (o : LegacyOps) : Encoding.Statement (.cmplesd o) := Encoding.of_form (Form.instr_form _)

theorem Encoding.cmpunordsd (o : LegacyOps) : Encoding.Statement (.cmpunordsd o) := Encoding.of_form (Form.instr_form _)

theorem Encoding.cmpneqsd (o : LegacyOps) : Encoding.Statement (.cmpneqsd o) := Encoding.of_form (Form.instr_form _)

theorem Encoding.cmpnltsd (o : LegacyOps) : Encoding.Statement (.cmpnltsd o) := Encoding.of_form (Form.instr_form _)

theorem Encoding.cmpnlesd (o : LegacyOps) : Encoding.Statement (.cmpnlesd o) := Encoding.of_form (Form.instr_form _)

theorem Encoding.cmpordsd (o : LegacyOps) : Encoding.Statement (.cmpordsd o) := Encoding.of_form (Form.instr_form _)

theorem Encoding.vcmpeqsdVex (o : VexOps) : Encoding.Statement (.vcmpeqsdVex o) := Encoding.of_form (Form.instr_form _)

theorem Encoding.vcmpltsdVex (o : VexOps) : Encoding.Statement (.vcmpltsdVex o) := Encoding.of_form (Form.instr_form _)

theorem Encoding.vcmplesdVex (o : VexOps) : Encoding.Statement (.vcmplesdVex o) := Encoding.of_form (Form.instr_form _)

theorem Encoding.vcmpunordsdVex (o : VexOps) : Encoding.Statement (.vcmpunordsdVex o) := Encoding.of_form (Form.instr_form _)

theorem Encoding.vcmpneqsdVex (o : VexOps) : Encoding.Statement (.vcmpneqsdVex o) := Encoding.of_form (Form.instr_form _)

theorem Encoding.vcmpnltsdVex (o : VexOps) : Encoding.Statement (.vcmpnltsdVex o) := Encoding.of_form (Form.instr_form _)

theorem Encoding.vcmpnlesdVex (o : VexOps) : Encoding.Statement (.vcmpnlesdVex o) := Encoding.of_form (Form.instr_form _)

theorem Encoding.vcmpordsdVex (o : VexOps) : Encoding.Statement (.vcmpordsdVex o) := Encoding.of_form (Form.instr_form _)

theorem Encoding.vcmpeq_uqsdVex (o : VexOps) : Encoding.Statement (.vcmpeq_uqsdVex o) := Encoding.of_form (Form.instr_form _)

theorem Encoding.vcmpngesdVex (o : VexOps) : Encoding.Statement (.vcmpngesdVex o) := Encoding.of_form (Form.instr_form _)

theorem Encoding.vcmpngtsdVex (o : VexOps) : Encoding.Statement (.vcmpngtsdVex o) := Encoding.of_form (Form.instr_form _)

theorem Encoding.vcmpfalsesdVex (o : VexOps) : Encoding.Statement (.vcmpfalsesdVex o) := Encoding.of_form (Form.instr_form _)

theorem Encoding.vcmpneq_oqsdVex (o : VexOps) : Encoding.Statement (.vcmpneq_oqsdVex o) := Encoding.of_form (Form.instr_form _)

theorem Encoding.vcmpgesdVex (o : VexOps) : Encoding.Statement (.vcmpgesdVex o) := Encoding.of_form (Form.instr_form _)

theorem Encoding.vcmpgtsdVex (o : VexOps) : Encoding.Statement (.vcmpgtsdVex o) := Encoding.of_form (Form.instr_form _)

theorem Encoding.vcmptruesdVex (o : VexOps) : Encoding.Statement (.vcmptruesdVex o) := Encoding.of_form (Form.instr_form _)

theorem Encoding.vcmpeq_ossdVex (o : VexOps) : Encoding.Statement (.vcmpeq_ossdVex o) := Encoding.of_form (Form.instr_form _)

theorem Encoding.vcmplt_oqsdVex (o : VexOps) : Encoding.Statement (.vcmplt_oqsdVex o) := Encoding.of_form (Form.instr_form _)

theorem Encoding.vcmple_oqsdVex (o : VexOps) : Encoding.Statement (.vcmple_oqsdVex o) := Encoding.of_form (Form.instr_form _)

theorem Encoding.vcmpunord_ssdVex (o : VexOps) : Encoding.Statement (.vcmpunord_ssdVex o) := Encoding.of_form (Form.instr_form _)

theorem Encoding.vcmpneq_ussdVex (o : VexOps) : Encoding.Statement (.vcmpneq_ussdVex o) := Encoding.of_form (Form.instr_form _)

theorem Encoding.vcmpnlt_uqsdVex (o : VexOps) : Encoding.Statement (.vcmpnlt_uqsdVex o) := Encoding.of_form (Form.instr_form _)

theorem Encoding.vcmpnle_uqsdVex (o : VexOps) : Encoding.Statement (.vcmpnle_uqsdVex o) := Encoding.of_form (Form.instr_form _)

theorem Encoding.vcmpord_ssdVex (o : VexOps) : Encoding.Statement (.vcmpord_ssdVex o) := Encoding.of_form (Form.instr_form _)

theorem Encoding.vcmpeq_ussdVex (o : VexOps) : Encoding.Statement (.vcmpeq_ussdVex o) := Encoding.of_form (Form.instr_form _)

theorem Encoding.vcmpnge_uqsdVex (o : VexOps) : Encoding.Statement (.vcmpnge_uqsdVex o) := Encoding.of_form (Form.instr_form _)

theorem Encoding.vcmpngt_uqsdVex (o : VexOps) : Encoding.Statement (.vcmpngt_uqsdVex o) := Encoding.of_form (Form.instr_form _)

theorem Encoding.vcmpfalse_ossdVex (o : VexOps) : Encoding.Statement (.vcmpfalse_ossdVex o) := Encoding.of_form (Form.instr_form _)

theorem Encoding.vcmpneq_ossdVex (o : VexOps) : Encoding.Statement (.vcmpneq_ossdVex o) := Encoding.of_form (Form.instr_form _)

theorem Encoding.vcmpge_oqsdVex (o : VexOps) : Encoding.Statement (.vcmpge_oqsdVex o) := Encoding.of_form (Form.instr_form _)

theorem Encoding.vcmpgt_oqsdVex (o : VexOps) : Encoding.Statement (.vcmpgt_oqsdVex o) := Encoding.of_form (Form.instr_form _)

theorem Encoding.vcmptrue_ussdVex (o : VexOps) : Encoding.Statement (.vcmptrue_ussdVex o) := Encoding.of_form (Form.instr_form _)

theorem Encoding.vcmpeqsdEvex (o : EvexOps) : Encoding.Statement (.vcmpeqsdEvex o) := Encoding.of_form (Form.instr_form _)

theorem Encoding.vcmpltsdEvex (o : EvexOps) : Encoding.Statement (.vcmpltsdEvex o) := Encoding.of_form (Form.instr_form _)

theorem Encoding.vcmplesdEvex (o : EvexOps) : Encoding.Statement (.vcmplesdEvex o) := Encoding.of_form (Form.instr_form _)

theorem Encoding.vcmpunordsdEvex (o : EvexOps) : Encoding.Statement (.vcmpunordsdEvex o) := Encoding.of_form (Form.instr_form _)

theorem Encoding.vcmpneqsdEvex (o : EvexOps) : Encoding.Statement (.vcmpneqsdEvex o) := Encoding.of_form (Form.instr_form _)

theorem Encoding.vcmpnltsdEvex (o : EvexOps) : Encoding.Statement (.vcmpnltsdEvex o) := Encoding.of_form (Form.instr_form _)

theorem Encoding.vcmpnlesdEvex (o : EvexOps) : Encoding.Statement (.vcmpnlesdEvex o) := Encoding.of_form (Form.instr_form _)

theorem Encoding.vcmpordsdEvex (o : EvexOps) : Encoding.Statement (.vcmpordsdEvex o) := Encoding.of_form (Form.instr_form _)

theorem Encoding.vcmpeq_uqsdEvex (o : EvexOps) : Encoding.Statement (.vcmpeq_uqsdEvex o) := Encoding.of_form (Form.instr_form _)

theorem Encoding.vcmpngesdEvex (o : EvexOps) : Encoding.Statement (.vcmpngesdEvex o) := Encoding.of_form (Form.instr_form _)

theorem Encoding.vcmpngtsdEvex (o : EvexOps) : Encoding.Statement (.vcmpngtsdEvex o) := Encoding.of_form (Form.instr_form _)

theorem Encoding.vcmpfalsesdEvex (o : EvexOps) : Encoding.Statement (.vcmpfalsesdEvex o) := Encoding.of_form (Form.instr_form _)

theorem Encoding.vcmpneq_oqsdEvex (o : EvexOps) : Encoding.Statement (.vcmpneq_oqsdEvex o) := Encoding.of_form (Form.instr_form _)

theorem Encoding.vcmpgesdEvex (o : EvexOps) : Encoding.Statement (.vcmpgesdEvex o) := Encoding.of_form (Form.instr_form _)

theorem Encoding.vcmpgtsdEvex (o : EvexOps) : Encoding.Statement (.vcmpgtsdEvex o) := Encoding.of_form (Form.instr_form _)

theorem Encoding.vcmptruesdEvex (o : EvexOps) : Encoding.Statement (.vcmptruesdEvex o) := Encoding.of_form (Form.instr_form _)

theorem Encoding.vcmpeq_ossdEvex (o : EvexOps) : Encoding.Statement (.vcmpeq_ossdEvex o) := Encoding.of_form (Form.instr_form _)

theorem Encoding.vcmplt_oqsdEvex (o : EvexOps) : Encoding.Statement (.vcmplt_oqsdEvex o) := Encoding.of_form (Form.instr_form _)

theorem Encoding.vcmple_oqsdEvex (o : EvexOps) : Encoding.Statement (.vcmple_oqsdEvex o) := Encoding.of_form (Form.instr_form _)

theorem Encoding.vcmpunord_ssdEvex (o : EvexOps) : Encoding.Statement (.vcmpunord_ssdEvex o) := Encoding.of_form (Form.instr_form _)

theorem Encoding.vcmpneq_ussdEvex (o : EvexOps) : Encoding.Statement (.vcmpneq_ussdEvex o) := Encoding.of_form (Form.instr_form _)

theorem Encoding.vcmpnlt_uqsdEvex (o : EvexOps) : Encoding.Statement (.vcmpnlt_uqsdEvex o) := Encoding.of_form (Form.instr_form _)

theorem Encoding.vcmpnle_uqsdEvex (o : EvexOps) : Encoding.Statement (.vcmpnle_uqsdEvex o) := Encoding.of_form (Form.instr_form _)

theorem Encoding.vcmpord_ssdEvex (o : EvexOps) : Encoding.Statement (.vcmpord_ssdEvex o) := Encoding.of_form (Form.instr_form _)

theorem Encoding.vcmpeq_ussdEvex (o : EvexOps) : Encoding.Statement (.vcmpeq_ussdEvex o) := Encoding.of_form (Form.instr_form _)

theorem Encoding.vcmpnge_uqsdEvex (o : EvexOps) : Encoding.Statement (.vcmpnge_uqsdEvex o) := Encoding.of_form (Form.instr_form _)

theorem Encoding.vcmpngt_uqsdEvex (o : EvexOps) : Encoding.Statement (.vcmpngt_uqsdEvex o) := Encoding.of_form (Form.instr_form _)

theorem Encoding.vcmpfalse_ossdEvex (o : EvexOps) : Encoding.Statement (.vcmpfalse_ossdEvex o) := Encoding.of_form (Form.instr_form _)

theorem Encoding.vcmpneq_ossdEvex (o : EvexOps) : Encoding.Statement (.vcmpneq_ossdEvex o) := Encoding.of_form (Form.instr_form _)

theorem Encoding.vcmpge_oqsdEvex (o : EvexOps) : Encoding.Statement (.vcmpge_oqsdEvex o) := Encoding.of_form (Form.instr_form _)

theorem Encoding.vcmpgt_oqsdEvex (o : EvexOps) : Encoding.Statement (.vcmpgt_oqsdEvex o) := Encoding.of_form (Form.instr_form _)

theorem Encoding.vcmptrue_ussdEvex (o : EvexOps) : Encoding.Statement (.vcmptrue_ussdEvex o) := Encoding.of_form (Form.instr_form _)

end Sys2Proof.Laws
end

