-- ==== Sys2Proof/Tests/Slice0.lean ====
section
/-! SUPPORT. The model's own tests: ill-formed terms that WellFormed refuses, words written out from the spec's
layouts, vectors of 95_test_vectors.md, and a witness for the hypotheses of every obligation that has some. -/

namespace Sys2Proof.Tests

set_option Elab.async false

open Sys2Proof.Machine

/-! ## Helpers -/

/-- No optional prefix. -/
def noPfx : Prefixes := ⟨none, false⟩

/-- A launched machine with flat segments and every feature; masked-off reads are suppressed. -/
def base : State :=
  { State.reset.launched with
    params := ⟨true, true, true, .bits512, 64, .refuse, .suppressed⟩
    segBase := ⟨0#64, 0#64, 0#64, 0#64, 0#64, 0#64⟩
    pc := 0x1000#64 }

/-- A vector register of three kinds of element. -/
def vec (e0 e1 rest : Word) : VecReg := #v[e0, e1, rest, rest, rest, rest, rest, rest]

/-- `base` with vector registers 0, 1 and 2. -/
def withVecs (r0 r1 r2 : VecReg) : State :=
  { base with v := ((base.v.set 0 r0).set 1 r1).set 2 r2 }

/-- The tests' numbers. -/
def one : Word := 0x3FF0000000000000#64
def two : Word := 0x4000000000000000#64
def qnan : Word := 0x7FF8000000000000#64
def snan : Word := 0x7FF0000000000001#64

/-- `v[1]` and `v[2]` hold these doubles. -/
def pair (a b : Word) : State := withVecs (vec 0 0 0) (vec a 0 0) (vec b 0 0)

/-- A memory of two bytes. -/
def twoBytes (a0 : Nat) (b0 : Byte) (a1 : Nat) (b1 : Byte) : List Host.Cell :=
  Memory.write (Memory.write [] a0 b0) a1 b1

def isNext : Result → Bool
  | .next _ => true
  | .fault _ => false
  | .refused _ => false

def vecAfter (n : BitVec 5) : Result → Option VecReg
  | .next t => some (t.vreg n)
  | .fault _ => none
  | .refused _ => none

def maskAfter (n : BitVec 3) : Result → Option (MaskReg × BitVec 32)
  | .next t => some (t.kreg n, t.mxcsr)
  | .fault _ => none
  | .refused _ => none

def pcAfter : Result → Option (BitVec 64)
  | .next t => some t.pc
  | .fault _ => none
  | .refused _ => none

/-- The exception with MXCSR and `pc` of the state it leaves. -/
def faultOf : Result → Option (Exception × BitVec 32 × BitVec 64)
  | .next _ => none
  | .fault (.exception e t) => some (e, t.mxcsr, t.pc)
  | .refused _ => none

def refusalOf : Result → Option Refusal
  | .next _ => none
  | .fault _ => none
  | .refused r => some r

theorem exists_of_isNext {r : Result} (h : isNext r = true) : ∃ t, r = .next t := by
  cases r with
  | next t => exact ⟨t, rfl⟩
  | fault f => cases h
  | refused f => cases h

/-! ## The constructors, with the `imm8` of each pseudo-mnemonic as R103 and R104 give it -/

def legacyNames0 : List ((LegacyOps → Instr) × Byte) := [
    (Instr.cmpeqsd, 0x00#8), (Instr.cmpltsd, 0x01#8), (Instr.cmplesd, 0x02#8), (Instr.cmpunordsd, 0x03#8),
    (Instr.cmpneqsd, 0x04#8), (Instr.cmpnltsd, 0x05#8), (Instr.cmpnlesd, 0x06#8), (Instr.cmpordsd, 0x07#8)]

def legacyNames : List ((LegacyOps → Instr) × Byte) := legacyNames0

def vexNames0 : List ((VexOps → Instr) × Byte) := [
    (Instr.vcmpeqsdVex, 0x00#8), (Instr.vcmpltsdVex, 0x01#8), (Instr.vcmplesdVex, 0x02#8),
    (Instr.vcmpunordsdVex, 0x03#8), (Instr.vcmpneqsdVex, 0x04#8), (Instr.vcmpnltsdVex, 0x05#8),
    (Instr.vcmpnlesdVex, 0x06#8), (Instr.vcmpordsdVex, 0x07#8)]

def vexNames1 : List ((VexOps → Instr) × Byte) := [
    (Instr.vcmpeq_uqsdVex, 0x08#8), (Instr.vcmpngesdVex, 0x09#8), (Instr.vcmpngtsdVex, 0x0A#8),
    (Instr.vcmpfalsesdVex, 0x0B#8), (Instr.vcmpneq_oqsdVex, 0x0C#8), (Instr.vcmpgesdVex, 0x0D#8),
    (Instr.vcmpgtsdVex, 0x0E#8), (Instr.vcmptruesdVex, 0x0F#8)]

def vexNames2 : List ((VexOps → Instr) × Byte) := [
    (Instr.vcmpeq_ossdVex, 0x10#8), (Instr.vcmplt_oqsdVex, 0x11#8), (Instr.vcmple_oqsdVex, 0x12#8),
    (Instr.vcmpunord_ssdVex, 0x13#8), (Instr.vcmpneq_ussdVex, 0x14#8), (Instr.vcmpnlt_uqsdVex, 0x15#8),
    (Instr.vcmpnle_uqsdVex, 0x16#8), (Instr.vcmpord_ssdVex, 0x17#8)]

def vexNames3 : List ((VexOps → Instr) × Byte) := [
    (Instr.vcmpeq_ussdVex, 0x18#8), (Instr.vcmpnge_uqsdVex, 0x19#8), (Instr.vcmpngt_uqsdVex, 0x1A#8),
    (Instr.vcmpfalse_ossdVex, 0x1B#8), (Instr.vcmpneq_ossdVex, 0x1C#8), (Instr.vcmpge_oqsdVex, 0x1D#8),
    (Instr.vcmpgt_oqsdVex, 0x1E#8), (Instr.vcmptrue_ussdVex, 0x1F#8)]

def vexNames : List ((VexOps → Instr) × Byte) := vexNames0 ++ vexNames1 ++ vexNames2 ++ vexNames3

def evexNames0 : List ((EvexOps → Instr) × Byte) := [
    (Instr.vcmpeqsdEvex, 0x00#8), (Instr.vcmpltsdEvex, 0x01#8), (Instr.vcmplesdEvex, 0x02#8),
    (Instr.vcmpunordsdEvex, 0x03#8), (Instr.vcmpneqsdEvex, 0x04#8), (Instr.vcmpnltsdEvex, 0x05#8),
    (Instr.vcmpnlesdEvex, 0x06#8), (Instr.vcmpordsdEvex, 0x07#8)]

def evexNames1 : List ((EvexOps → Instr) × Byte) := [
    (Instr.vcmpeq_uqsdEvex, 0x08#8), (Instr.vcmpngesdEvex, 0x09#8), (Instr.vcmpngtsdEvex, 0x0A#8),
    (Instr.vcmpfalsesdEvex, 0x0B#8), (Instr.vcmpneq_oqsdEvex, 0x0C#8), (Instr.vcmpgesdEvex, 0x0D#8),
    (Instr.vcmpgtsdEvex, 0x0E#8), (Instr.vcmptruesdEvex, 0x0F#8)]

def evexNames2 : List ((EvexOps → Instr) × Byte) := [
    (Instr.vcmpeq_ossdEvex, 0x10#8), (Instr.vcmplt_oqsdEvex, 0x11#8), (Instr.vcmple_oqsdEvex, 0x12#8),
    (Instr.vcmpunord_ssdEvex, 0x13#8), (Instr.vcmpneq_ussdEvex, 0x14#8), (Instr.vcmpnlt_uqsdEvex, 0x15#8),
    (Instr.vcmpnle_uqsdEvex, 0x16#8), (Instr.vcmpord_ssdEvex, 0x17#8)]

def evexNames3 : List ((EvexOps → Instr) × Byte) := [
    (Instr.vcmpeq_ussdEvex, 0x18#8), (Instr.vcmpnge_uqsdEvex, 0x19#8), (Instr.vcmpngt_uqsdEvex, 0x1A#8),
    (Instr.vcmpfalse_ossdEvex, 0x1B#8), (Instr.vcmpneq_ossdEvex, 0x1C#8), (Instr.vcmpge_oqsdEvex, 0x1D#8),
    (Instr.vcmpgt_oqsdEvex, 0x1E#8), (Instr.vcmptrue_ussdEvex, 0x1F#8)]

def evexNames : List ((EvexOps → Instr) × Byte) := evexNames0 ++ evexNames1 ++ evexNames2 ++ evexNames3

/-- Legacy operands `xmm0, xmm1`. -/
def legacyOps : LegacyOps := ⟨noPfx, none, ⟨0#3, .reg 1#3⟩⟩
/-- VEX operands `xmm0, xmm1, xmm2`, and the same by three bytes. -/
def vexOps : VexOps := ⟨noPfx, .two ⟨false, 1#4, false⟩, ⟨0#3, .reg 2#3⟩⟩
def vex3Ops : VexOps := ⟨noPfx, .three ⟨false, false, false, false, 1#4, false⟩, ⟨0#3, .reg 2#3⟩⟩
/-- EVEX operands `k1, xmm1, xmm2`. -/
def evexPfx : Evex := ⟨false, false, 1#4, 0#2, false, false, 0#3⟩
def evexOps : EvexOps := ⟨noPfx, evexPfx, ⟨1#3, .reg 2#3⟩⟩
def rexPfx : Rex := ⟨false, true, false, true⟩

/-- An instruction of every constructor, by form. -/
def legacySamples : List (Instr × LegacyOps × BitVec 8) :=
  [(.cmpsd noPfx ⟨0#3, .reg 1#3⟩ 1#8, legacyOps, 1#8),
    (.cmpsdRex noPfx rexPfx ⟨0#3, .reg 1#3⟩ 2#8, ⟨noPfx, some rexPfx, ⟨0#3, .reg 1#3⟩⟩, 2#8)] ++
  legacyNames0.map fun q => (q.1 legacyOps, legacyOps, q.2)

def vexSamples : List (Instr × VexOps × BitVec 8) :=
  [(.vcmpsdVex2 noPfx ⟨false, 1#4, false⟩ ⟨0#3, .reg 2#3⟩ 0x11#8, vexOps, 0x11#8),
    (.vcmpsdVex3 noPfx ⟨false, false, false, false, 1#4, false⟩ ⟨0#3, .reg 2#3⟩ 0x11#8, vex3Ops, 0x11#8)] ++
  vexNames.map fun q => (q.1 vexOps, vexOps, q.2)

def evexSamples : List (Instr × EvexOps × BitVec 8) :=
  (.vcmpsdEvex noPfx evexPfx ⟨1#3, .reg 2#3⟩ 1#8, evexOps, 1#8) :: evexNames.map fun q => (q.1 evexOps, evexOps, q.2)

def allSamples : List Instr := legacySamples.map (·.1) ++ vexSamples.map (·.1) ++ evexSamples.map (·.1)

/-- `EVEX` operands that read memory at `[rax]` under the write mask `k2`. -/
def evexMemOps : EvexOps := ⟨noPfx, { evexPfx with aaa := 2#3 }, ⟨1#3, .mem (.based 0#3 .none)⟩⟩
def legacyMemOps : LegacyOps := ⟨noPfx, none, ⟨0#3, .mem (.based 0#3 .none)⟩⟩
def vexMemOps : VexOps := ⟨noPfx, .two ⟨false, 1#4, false⟩, ⟨0#3, .mem (.based 0#3 .none)⟩⟩

/-! ## WellFormed refuses -/

theorem test_wf_accepts_all : ∀ i ∈ allSamples, i.wellFormed .mode64 = true := by decide

theorem test_wf_mode16 : ∀ i ∈ allSamples, i.wellFormed .mode16 = false := by decide

theorem test_wf_rex_in_mode32 : (Instr.cmpsdRex noPfx rexPfx ⟨0#3, .reg 1#3⟩ 0#8).wellFormed .mode32 = false := by decide

/-- `r/m = 100b` is a SIB byte, and `mod = 00b, r/m = 101b` a displacement alone (R82). -/
theorem test_wf_based : ∀ f ∈ [MemForm.based 4#3 .none, .based 4#3 (.d8 0#8), .based 5#3 .none],
    (Instr.cmpsd noPfx ⟨0#3, .mem f⟩ 0#8).wellFormed .mode64 = false := by decide

theorem test_wf_sib_base5 : (Instr.cmpsd noPfx ⟨0#3, .mem (.sib 0#2 1#3 5#3 .none)⟩ 0#8).wellFormed .mode64 = false := by
  decide

theorem test_wf_based16 :
    (Instr.cmpsd ⟨none, true⟩ ⟨0#3, .mem (.based16 6#3 .none)⟩ 0#8).wellFormed .mode32 = false := by decide

/-- 16-bit addressing exists in Mode32 with `67` only, and there it is the only one (R81). -/
theorem test_wf_address_size :
    (Instr.cmpsd noPfx ⟨0#3, .mem (.direct16 0#16)⟩ 0#8).wellFormed .mode32 = false ∧
    (Instr.cmpsd ⟨none, true⟩ ⟨0#3, .mem (.direct16 0#16)⟩ 0#8).wellFormed .mode64 = false ∧
    (Instr.cmpsd ⟨none, true⟩ ⟨0#3, .mem (.based 0#3 .none)⟩ 0#8).wellFormed .mode32 = false := by decide

/-- A VEX form that names a register above 7, or sets a bit that is part of `C4`/`C5`'s Mode32 marker (R78). -/
theorem test_wf_vex_high_in_mode32 :
    ∀ v ∈ [VexPrefix.two ⟨true, 0#4, false⟩, .two ⟨false, 8#4, false⟩, .three ⟨true, false, false, false, 0#4, false⟩,
        .three ⟨false, true, false, false, 0#4, false⟩, .three ⟨false, false, true, false, 0#4, false⟩,
        .three ⟨false, false, false, false, 8#4, false⟩],
      (Form.vex ⟨noPfx, v, ⟨0#3, .reg 0#3⟩⟩ 0#8).instr.wellFormed .mode32 = false := by decide

theorem test_wf_evex_high_in_mode32 :
    ∀ e ∈ [{ evexPfx with x := true }, { evexPfx with b := true }, { evexPfx with vHi := true },
        { evexPfx with vvvv := 8#4 }],
      (Instr.vcmpsdEvex noPfx e ⟨0#3, .reg 0#3⟩ 0#8).wellFormed .mode32 = false := by decide

/-! ## Decoding: words of 95_test_vectors.md, table 2.5 -/

/-- E1 to E9, the legacy form. -/
theorem test_decode_legacy : ∀ q ∈ [
    ([0xF2#8, 0x0F#8, 0xC2#8, 0xC1#8, 0x01#8], Instr.cmpsd noPfx ⟨0#3, .reg 1#3⟩ 1#8),
    ([0xF2#8, 0x0F#8, 0xC2#8, 0x10#8, 0x00#8], .cmpsd noPfx ⟨2#3, .mem (.based 0#3 .none)⟩ 0#8),
    ([0xF2#8, 0x45#8, 0x0F#8, 0xC2#8, 0xC1#8, 0x02#8], .cmpsdRex noPfx rexPfx ⟨0#3, .reg 1#3⟩ 2#8),
    ([0xF2#8, 0x0F#8, 0xC2#8, 0x44#8, 0x24#8, 0x08#8, 0x05#8],
      .cmpsd noPfx ⟨0#3, .mem (.sib 0#2 4#3 4#3 (.d8 8#8))⟩ 5#8),
    ([0xF2#8, 0x0F#8, 0xC2#8, 0x05#8, 0x10#8, 0x00#8, 0x00#8, 0x00#8, 0x03#8],
      .cmpsd noPfx ⟨0#3, .mem (.direct 0x10#32)⟩ 3#8),
    ([0x67#8, 0xF2#8, 0x0F#8, 0xC2#8, 0x00#8, 0x00#8], .cmpsd ⟨none, true⟩ ⟨0#3, .mem (.based 0#3 .none)⟩ 0#8),
    ([0xF2#8, 0x41#8, 0x0F#8, 0xC2#8, 0x04#8, 0x24#8, 0x00#8],
      .cmpsdRex noPfx ⟨false, false, false, true⟩ ⟨0#3, .mem (.sib 0#2 4#3 4#3 .none)⟩ 0#8),
    ([0xF2#8, 0x0F#8, 0xC2#8, 0x04#8, 0x25#8, 0x78#8, 0x56#8, 0x34#8, 0x12#8, 0x07#8],
      .cmpsd noPfx ⟨0#3, .mem (.sibNoBase 0#2 4#3 0x12345678#32)⟩ 7#8),
    ([0xF2#8, 0x0F#8, 0xC2#8, 0x44#8, 0x8B#8, 0x10#8, 0x01#8],
      .cmpsd noPfx ⟨0#3, .mem (.sib 2#2 1#3 3#3 (.d8 0x10#8))⟩ 1#8)],
    decode .mode64 q.1 = .instr q.2 [] ∧ encode q.2 = q.1 := by decide

/-- E10 to E15, the VEX form. -/
theorem test_decode_vex : ∀ q ∈ [
    ([0xC5#8, 0xF3#8, 0xC2#8, 0xC2#8, 0x11#8], Instr.vcmpsdVex2 noPfx ⟨false, 1#4, false⟩ ⟨0#3, .reg 2#3⟩ 0x11#8),
    ([0xC4#8, 0xE1#8, 0x73#8, 0xC2#8, 0xC2#8, 0x11#8],
      .vcmpsdVex3 noPfx ⟨false, false, false, false, 1#4, false⟩ ⟨0#3, .reg 2#3⟩ 0x11#8),
    ([0xC5#8, 0xE3#8, 0xC2#8, 0x10#8, 0x0D#8],
      .vcmpsdVex2 noPfx ⟨false, 3#4, false⟩ ⟨2#3, .mem (.based 0#3 .none)⟩ 0x0D#8),
    ([0xC4#8, 0x41#8, 0x3B#8, 0xC2#8, 0xC1#8, 0x1F#8],
      .vcmpsdVex3 noPfx ⟨true, false, true, false, 8#4, false⟩ ⟨0#3, .reg 1#3⟩ 0x1F#8),
    ([0xC5#8, 0xF7#8, 0xC2#8, 0xC2#8, 0x00#8], .vcmpsdVex2 noPfx ⟨false, 1#4, true⟩ ⟨0#3, .reg 2#3⟩ 0#8),
    ([0xC4#8, 0xE1#8, 0xF3#8, 0xC2#8, 0xC2#8, 0x00#8],
      .vcmpsdVex3 noPfx ⟨false, false, false, true, 1#4, false⟩ ⟨0#3, .reg 2#3⟩ 0#8)],
    decode .mode64 q.1 = .instr q.2 [] ∧ encode q.2 = q.1 := by decide

/-- E16 to E21, the EVEX form. -/
theorem test_decode_evex : ∀ q ∈ [
    ([0x62#8, 0xF1#8, 0xF7#8, 0x08#8, 0xC2#8, 0xCA#8, 0x01#8], Instr.vcmpsdEvex noPfx evexPfx ⟨1#3, .reg 2#3⟩ 1#8),
    ([0x62#8, 0xF1#8, 0xF7#8, 0x0A#8, 0xC2#8, 0xCA#8, 0x01#8],
      .vcmpsdEvex noPfx { evexPfx with aaa := 2#3 } ⟨1#3, .reg 2#3⟩ 1#8),
    ([0x62#8, 0xF1#8, 0xF7#8, 0x18#8, 0xC2#8, 0xCA#8, 0x01#8],
      .vcmpsdEvex noPfx { evexPfx with bc := true } ⟨1#3, .reg 2#3⟩ 1#8),
    ([0x62#8, 0xF1#8, 0xF7#8, 0x08#8, 0xC2#8, 0x48#8, 0x01#8, 0x00#8],
      .vcmpsdEvex noPfx evexPfx ⟨1#3, .mem (.based 0#3 (.d8 1#8))⟩ 0#8),
    ([0x62#8, 0x91#8, 0x97#8, 0x00#8, 0xC2#8, 0xD9#8, 0x04#8],
      .vcmpsdEvex noPfx ⟨true, true, 13#4, 0#2, false, true, 0#3⟩ ⟨3#3, .reg 1#3⟩ 4#8),
    ([0x62#8, 0xF1#8, 0xF7#8, 0x68#8, 0xC2#8, 0xCA#8, 0x01#8],
      .vcmpsdEvex noPfx { evexPfx with ll := 3#2 } ⟨1#3, .reg 2#3⟩ 1#8)],
    decode .mode64 q.1 = .instr q.2 [] ∧ encode q.2 = q.1 := by decide

/-- E22, E23, E25 to E27, and E28 in Mode16: refusals and #UD of the decoder. -/
theorem test_decode_rejects :
    decode .mode64 [0x62#8, 0xF1#8, 0xF7#8, 0x88#8, 0xC2#8, 0xCA#8, 0x01#8] = .reject .zeroingMarker ∧
    decode .mode64 [0x62#8, 0xF1#8, 0x77#8, 0x08#8, 0xC2#8, 0xCA#8, 0x01#8] = .reject .undefinedOpcode ∧
    decode .mode64 [0x62#8, 0x71#8, 0xF7#8, 0x08#8, 0xC2#8, 0xCA#8, 0x01#8] = .reject .undefinedOpcode ∧
    decode .mode64 [0xF0#8, 0xF2#8, 0x0F#8, 0xC2#8, 0xC1#8, 0x00#8] = .reject .undefinedOpcode ∧
    decode .mode64 [0x66#8, 0xC5#8, 0xF3#8, 0xC2#8, 0xC2#8, 0x00#8] = .reject .undefinedOpcode ∧
    decode .mode16 [0xF2#8, 0x0F#8, 0xC2#8, 0xC1#8, 0x01#8] = .reject .undefinedOpcode := by decide

/-- E30: 16-bit addressing in Mode32. -/
theorem test_decode_mode32_16bit :
    decode .mode32 [0x67#8, 0xF2#8, 0x0F#8, 0xC2#8, 0x40#8, 0x02#8, 0x00#8] =
      .instr (.cmpsd ⟨none, true⟩ ⟨0#3, .mem (.based16 0#3 (.d8 2#8))⟩ 0#8) [] := by decide

/-- R103: the word of each legacy pseudo-mnemonic with `xmm0, xmm1`. -/
theorem test_decode_legacy_names : ∀ q ∈ legacyNames,
    decode .mode64 [0xF2#8, 0x0F#8, 0xC2#8, 0xC1#8, q.2] = .instr (q.1 legacyOps).core [] := by decide

/-- R104: the word of each VEX pseudo-mnemonic with `xmm0, xmm1, xmm2`. -/
theorem test_decode_vex_names : ∀ q ∈ vexNames,
    decode .mode64 [0xC5#8, 0xF3#8, 0xC2#8, 0xC2#8, q.2] = .instr (q.1 vexOps).core [] := by decide

/-- R104: the word of each EVEX pseudo-mnemonic with `k1, xmm1, xmm2`. -/
theorem test_decode_evex_names : ∀ q ∈ evexNames,
    decode .mode64 [0x62#8, 0xF1#8, 0xF7#8, 0x08#8, 0xC2#8, 0xCA#8, q.2] = .instr (q.1 evexOps).core [] := by decide

/-- The host's numbering: the first byte of a row is bits 7:0. -/
theorem test_decodeTableWord :
    decodeTableWord 24 0xC20FF2 = some (.cmpsd noPfx ⟨0#3, .mem (.based 0#3 .none)⟩ 0#8) := by decide +kernel

/-! ## `Compare`: 95_test_vectors.md, table 2.1 -/

/-- 95_test_vectors.md, table 2.1, lines 1 to 11. -/
theorem test_compare_lines_1_to_11 : ∀ q ∈ [
    (0x3FF0000000000000#64, 0x4000000000000000#64, 0x00#5, 0x1F80#32, true, Rel.lt, CompareOutcome.done false 0x1F80#32),
    (0x3FF0000000000000#64, 0x4000000000000000#64, 0x01#5, 0x1F80#32, true, Rel.lt, CompareOutcome.done true 0x1F80#32),
    (0x3FF0000000000000#64, 0x4000000000000000#64, 0x02#5, 0x1F80#32, true, Rel.lt, CompareOutcome.done true 0x1F80#32),
    (0x3FF0000000000000#64, 0x4000000000000000#64, 0x03#5, 0x1F80#32, true, Rel.lt, CompareOutcome.done false 0x1F80#32),
    (0x3FF0000000000000#64, 0x4000000000000000#64, 0x04#5, 0x1F80#32, true, Rel.lt, CompareOutcome.done true 0x1F80#32),
    (0x3FF0000000000000#64, 0x4000000000000000#64, 0x05#5, 0x1F80#32, true, Rel.lt, CompareOutcome.done false 0x1F80#32),
    (0x3FF0000000000000#64, 0x4000000000000000#64, 0x06#5, 0x1F80#32, true, Rel.lt, CompareOutcome.done false 0x1F80#32),
    (0x3FF0000000000000#64, 0x4000000000000000#64, 0x07#5, 0x1F80#32, true, Rel.lt, CompareOutcome.done true 0x1F80#32),
    (0x4000000000000000#64, 0x3FF0000000000000#64, 0x01#5, 0x1F80#32, true, Rel.gt, CompareOutcome.done false 0x1F80#32),
    (0x4000000000000000#64, 0x3FF0000000000000#64, 0x0D#5, 0x1F80#32, true, Rel.gt, CompareOutcome.done true 0x1F80#32),
    (0x4000000000000000#64, 0x3FF0000000000000#64, 0x0E#5, 0x1F80#32, true, Rel.gt, CompareOutcome.done true 0x1F80#32)],
    rel (dazed q.2.2.2.1 q.1) (dazed q.2.2.2.1 q.2.1) = q.2.2.2.2.2.1 ∧
    compareOp q.1 q.2.1 q.2.2.1 false q.2.2.2.2.1 q.2.2.2.1 = q.2.2.2.2.2.2 := by
  simp only [List.forall_mem_cons, List.not_mem_nil, false_implies, implies_true, and_true]; decide +kernel

/-- 95_test_vectors.md, table 2.1, lines 12 to 22. -/
theorem test_compare_lines_12_to_22 : ∀ q ∈ [
    (0x4000000000000000#64, 0x3FF0000000000000#64, 0x09#5, 0x1F80#32, true, Rel.gt, CompareOutcome.done false 0x1F80#32),
    (0x4000000000000000#64, 0x4000000000000000#64, 0x0E#5, 0x1F80#32, true, Rel.eq, CompareOutcome.done false 0x1F80#32),
    (0x4000000000000000#64, 0x4000000000000000#64, 0x0D#5, 0x1F80#32, true, Rel.eq, CompareOutcome.done true 0x1F80#32),
    (0x0000000000000000#64, 0x8000000000000000#64, 0x00#5, 0x1F80#32, true, Rel.eq, CompareOutcome.done true 0x1F80#32),
    (0x8000000000000000#64, 0x0000000000000000#64, 0x01#5, 0x1F80#32, true, Rel.eq, CompareOutcome.done false 0x1F80#32),
    (0x0000000000000000#64, 0x8000000000000000#64, 0x04#5, 0x1F80#32, true, Rel.eq, CompareOutcome.done false 0x1F80#32),
    (0xBFF0000000000000#64, 0x0000000000000000#64, 0x01#5, 0x1F80#32, true, Rel.lt, CompareOutcome.done true 0x1F80#32),
    (0x7FF0000000000000#64, 0x7FF0000000000000#64, 0x00#5, 0x1F80#32, true, Rel.eq, CompareOutcome.done true 0x1F80#32),
    (0xFFF0000000000000#64, 0x7FF0000000000000#64, 0x01#5, 0x1F80#32, true, Rel.lt, CompareOutcome.done true 0x1F80#32),
    (0x7FEFFFFFFFFFFFFF#64, 0x7FF0000000000000#64, 0x0E#5, 0x1F80#32, true, Rel.lt, CompareOutcome.done false 0x1F80#32),
    (0x7FF8000000000000#64, 0x3FF0000000000000#64, 0x00#5, 0x1F80#32, true, Rel.un, CompareOutcome.done false 0x1F80#32)],
    rel (dazed q.2.2.2.1 q.1) (dazed q.2.2.2.1 q.2.1) = q.2.2.2.2.2.1 ∧
    compareOp q.1 q.2.1 q.2.2.1 false q.2.2.2.2.1 q.2.2.2.1 = q.2.2.2.2.2.2 := by
  simp only [List.forall_mem_cons, List.not_mem_nil, false_implies, implies_true, and_true]; decide +kernel

/-- 95_test_vectors.md, table 2.1, lines 23 to 33. -/
theorem test_compare_lines_23_to_33 : ∀ q ∈ [
    (0x7FF8000000000000#64, 0x3FF0000000000000#64, 0x01#5, 0x1F80#32, true, Rel.un, CompareOutcome.done false 0x1F81#32),
    (0x7FF8000000000000#64, 0x3FF0000000000000#64, 0x03#5, 0x1F80#32, true, Rel.un, CompareOutcome.done true 0x1F80#32),
    (0x7FF8000000000000#64, 0x3FF0000000000000#64, 0x04#5, 0x1F80#32, true, Rel.un, CompareOutcome.done true 0x1F80#32),
    (0x7FF8000000000000#64, 0x3FF0000000000000#64, 0x05#5, 0x1F80#32, true, Rel.un, CompareOutcome.done true 0x1F81#32),
    (0x3FF0000000000000#64, 0x7FF8000000000000#64, 0x07#5, 0x1F80#32, true, Rel.un, CompareOutcome.done false 0x1F80#32),
    (0x3FF0000000000000#64, 0x7FF8000000000000#64, 0x08#5, 0x1F80#32, true, Rel.un, CompareOutcome.done true 0x1F80#32),
    (0x3FF0000000000000#64, 0x7FF8000000000000#64, 0x10#5, 0x1F80#32, true, Rel.un, CompareOutcome.done false 0x1F81#32),
    (0x3FF0000000000000#64, 0x7FF8000000000000#64, 0x13#5, 0x1F80#32, true, Rel.un, CompareOutcome.done true 0x1F81#32),
    (0x3FF0000000000000#64, 0x7FF8000000000000#64, 0x17#5, 0x1F80#32, true, Rel.un, CompareOutcome.done false 0x1F81#32),
    (0x3FF0000000000000#64, 0x7FF8000000000000#64, 0x18#5, 0x1F80#32, true, Rel.un, CompareOutcome.done true 0x1F81#32),
    (0x3FF0000000000000#64, 0x7FF8000000000000#64, 0x0B#5, 0x1F80#32, true, Rel.un, CompareOutcome.done false 0x1F80#32)],
    rel (dazed q.2.2.2.1 q.1) (dazed q.2.2.2.1 q.2.1) = q.2.2.2.2.2.1 ∧
    compareOp q.1 q.2.1 q.2.2.1 false q.2.2.2.2.1 q.2.2.2.1 = q.2.2.2.2.2.2 := by
  simp only [List.forall_mem_cons, List.not_mem_nil, false_implies, implies_true, and_true]; decide +kernel

/-- 95_test_vectors.md, table 2.1, lines 34 to 44. -/
theorem test_compare_lines_34_to_44 : ∀ q ∈ [
    (0x3FF0000000000000#64, 0x7FF8000000000000#64, 0x1B#5, 0x1F80#32, true, Rel.un, CompareOutcome.done false 0x1F81#32),
    (0x3FF0000000000000#64, 0x7FF8000000000000#64, 0x0F#5, 0x1F80#32, true, Rel.un, CompareOutcome.done true 0x1F80#32),
    (0x3FF0000000000000#64, 0x7FF8000000000000#64, 0x1F#5, 0x1F80#32, true, Rel.un, CompareOutcome.done true 0x1F81#32),
    (0x3FF0000000000000#64, 0x7FF0000000000001#64, 0x00#5, 0x1F80#32, true, Rel.un, CompareOutcome.done false 0x1F81#32),
    (0x7FF0000000000001#64, 0x3FF0000000000000#64, 0x03#5, 0x1F80#32, true, Rel.un, CompareOutcome.done true 0x1F81#32),
    (0xFFFFFFFFFFFFFFFF#64, 0xFFFFFFFFFFFFFFFF#64, 0x00#5, 0x1F80#32, true, Rel.un, CompareOutcome.done false 0x1F80#32),
    (0xFFFFFFFFFFFFFFFF#64, 0xFFFFFFFFFFFFFFFF#64, 0x03#5, 0x1F80#32, true, Rel.un, CompareOutcome.done true 0x1F80#32),
    (0x0000000000000001#64, 0x3FF0000000000000#64, 0x01#5, 0x1F80#32, true, Rel.lt, CompareOutcome.done true 0x1F82#32),
    (0x0000000000000001#64, 0x0000000000000000#64, 0x00#5, 0x1F80#32, true, Rel.gt, CompareOutcome.done false 0x1F82#32),
    (0x0000000000000001#64, 0x0000000000000000#64, 0x00#5, 0x1FC0#32, true, Rel.eq, CompareOutcome.done true 0x1FC0#32),
    (0x8000000000000001#64, 0x0000000000000001#64, 0x01#5, 0x1F80#32, true, Rel.lt, CompareOutcome.done true 0x1F82#32)],
    rel (dazed q.2.2.2.1 q.1) (dazed q.2.2.2.1 q.2.1) = q.2.2.2.2.2.1 ∧
    compareOp q.1 q.2.1 q.2.2.1 false q.2.2.2.2.1 q.2.2.2.1 = q.2.2.2.2.2.2 := by
  simp only [List.forall_mem_cons, List.not_mem_nil, false_implies, implies_true, and_true]; decide +kernel

/-- 95_test_vectors.md, table 2.1, lines 45 to 55. -/
theorem test_compare_lines_45_to_55 : ∀ q ∈ [
    (0x8000000000000001#64, 0x0000000000000001#64, 0x01#5, 0x1FC0#32, true, Rel.eq, CompareOutcome.done false 0x1FC0#32),
    (0x000FFFFFFFFFFFFF#64, 0x0010000000000000#64, 0x01#5, 0x1F80#32, true, Rel.lt, CompareOutcome.done true 0x1F82#32),
    (0x0000000000000001#64, 0x7FF8000000000000#64, 0x00#5, 0x1F80#32, true, Rel.un, CompareOutcome.done false 0x1F80#32),
    (0x0000000000000001#64, 0x7FF8000000000000#64, 0x01#5, 0x1F80#32, true, Rel.un, CompareOutcome.done false 0x1F81#32),
    (0x7FF8000000000000#64, 0x3FF0000000000000#64, 0x01#5, 0x1F00#32, true, Rel.un, CompareOutcome.raises .xm 0x1F01#32),
    (0x7FF8000000000000#64, 0x3FF0000000000000#64, 0x00#5, 0x1F00#32, true, Rel.un, CompareOutcome.done false 0x1F00#32),
    (0x7FF0000000000001#64, 0x3FF0000000000000#64, 0x00#5, 0x1F00#32, true, Rel.un, CompareOutcome.raises .xm 0x1F01#32),
    (0x0000000000000001#64, 0x3FF0000000000000#64, 0x01#5, 0x1E80#32, true, Rel.lt, CompareOutcome.raises .xm 0x1E82#32),
    (0x0000000000000001#64, 0x3FF0000000000000#64, 0x01#5, 0x1EC0#32, true, Rel.lt, CompareOutcome.done true 0x1EC0#32),
    (0x7FF8000000000000#64, 0x3FF0000000000000#64, 0x01#5, 0x1F00#32, false, Rel.un, CompareOutcome.raises .ud 0x1F01#32),
    (0x7FF8000000000000#64, 0x3FF0000000000000#64, 0x01#5, 0x1F81#32, true, Rel.un, CompareOutcome.done false 0x1F81#32)],
    rel (dazed q.2.2.2.1 q.1) (dazed q.2.2.2.1 q.2.1) = q.2.2.2.2.2.1 ∧
    compareOp q.1 q.2.1 q.2.2.1 false q.2.2.2.2.1 q.2.2.2.1 = q.2.2.2.2.2.2 := by
  simp only [List.forall_mem_cons, List.not_mem_nil, false_implies, implies_true, and_true]; decide +kernel

/-- 95_test_vectors.md, the line under table 2.1: with sae, lines 49, 51, 52, 54. -/
theorem test_compare_sae : ∀ q ∈ [
    (0x7FF8000000000000#64, 0x3FF0000000000000#64, 0x01#5, 0x1F00#32, true, false),
    (0x7FF0000000000001#64, 0x3FF0000000000000#64, 0x00#5, 0x1F00#32, true, false),
    (0x0000000000000001#64, 0x3FF0000000000000#64, 0x01#5, 0x1E80#32, true, true),
    (0x7FF8000000000000#64, 0x3FF0000000000000#64, 0x01#5, 0x1F00#32, false, false)],
    compareOp q.1 q.2.1 q.2.2.1 true q.2.2.2.2.1 q.2.2.2.1 = .done q.2.2.2.2.2 q.2.2.2.1 := by
  simp only [List.forall_mem_cons, List.not_mem_nil, false_implies, implies_true, and_true]; decide +kernel

/-! ## The legacy form: table 2.2 -/

/-- L1 and L2: the low element alone is written. -/
theorem test_legacy_result : ∀ q ∈ [(0x01#8, ones64), (0x00#8, 0#64)],
    vecAfter 0#5 (step ((withVecs (vec one 0x1111111111111111 0xAAAAAAAAAAAAAAAA) (vec two 0 0) (vec 0 0 0)).withBytes
      [0xF2#8, 0x0F#8, 0xC2#8, 0xC1#8, q.1])) = some (vec q.2 0x1111111111111111 0xAAAAAAAAAAAAAAAA) := by
  simp only [List.forall_mem_cons, List.not_mem_nil, false_implies, implies_true, and_true]; decide +kernel

/-- L3 and L4: a register compared with itself. -/
theorem test_legacy_self : ∀ q ∈ [(qnan, 0#64), (two, ones64)],
    vecAfter 1#5 (step ((pair q.1 0).withBytes [0xF2#8, 0x0F#8, 0xC2#8, 0xC9#8, 0x00#8])) = some (vec q.2 0 0) := by
  simp only [List.forall_mem_cons, List.not_mem_nil, false_implies, implies_true, and_true]; decide +kernel

/-- L5: a memory operand is little-endian; here `ea = x[0] = 8000h`. -/
theorem test_legacy_memory :
    vecAfter 0#5 (step ({ withVecs (vec one 0 0) (vec 0 0 0) (vec 0 0 0) with
      x := base.x.set 0 0x8000#64, mem := [(0x8007, 0x40#8)] }.withBytes [0xF2#8, 0x0F#8, 0xC2#8, 0x00#8, 0x01#8])) =
      some (vec ones64 0 0) := by decide +kernel

/-- L6: a fault of the read leaves MXCSR and `pc`. -/
theorem test_legacy_memory_fault :
    faultOf (step ({ base with answers := [.pageFault 4#32 0x8000#64] }.withBytes
      [0xF2#8, 0x0F#8, 0xC2#8, 0x00#8, 0x01#8])) = some (.pf 4#32 0x8000#64, 0x1F80#32, 0x1000#64) := by decide +kernel

/-- L7, E29: a reserved bit of `imm8` is refused, or ignored. -/
theorem test_legacy_reserved_imm :
    refusalOf (step (base.withBytes [0xF2#8, 0x0F#8, 0xC2#8, 0xC1#8, 0x0D#8])) = some .reservedImm ∧
    vecAfter 0#5 (step ({ base with params := { base.params with immReserved := .ignore } }.withBytes
      [0xF2#8, 0x0F#8, 0xC2#8, 0xC1#8, 0x0D#8])) = some (vec ones64 0 0) := by decide +kernel

/-- Program P5: the same bytes in three modes, the operand at `pc + 9 + 10h`, at `10h`, and #UD. -/
theorem test_three_modes :
    vecAfter 0#5 (step ({ withVecs (vec one 0 0) (vec 0 0 0) (vec 0 0 0) with
      pc := 0x5000#64, mem := twoBytes 0x501F 0xF8#8 0x5020 0x7F#8 }.withBytes
      [0xF2#8, 0x0F#8, 0xC2#8, 0x05#8, 0x10#8, 0#8, 0#8, 0#8, 0x03#8])) = some (vec ones64 0 0) ∧
    vecAfter 0#5 (step { { withVecs (vec one 0 0) (vec 0 0 0) (vec 0 0 0) with
      pc := 0x5000#64, mem := twoBytes 0x16 0xF8#8 0x17 0x7F#8 }.withBytes
      [0xF2#8, 0x0F#8, 0xC2#8, 0x05#8, 0x10#8, 0#8, 0#8, 0#8, 0x03#8] with mode := .mode32 }) = some (vec ones64 0 0) ∧
    faultOf (step { { base with pc := 0x5000#64 }.withBytes
      [0xF2#8, 0x0F#8, 0xC2#8, 0x05#8, 0x10#8, 0#8, 0#8, 0#8, 0x03#8] with mode := .mode16 }) =
      some (.ud, 0x1F80#32, 0x5000#64) := by decide +kernel

/-! ## The VEX form: table 2.3 -/

/-- V1, V2, V5: the copied element and the zeros above it; `L = 1` changes nothing. -/
theorem test_vex_result : ∀ q ∈ [(0xF3#8, 0x0E#8, ones64), (0xF3#8, 0x01#8, 0#64), (0xF7#8, 0x0E#8, ones64)],
    vecAfter 0#5 (step ((withVecs (vec ones64 ones64 ones64) (vec two 0x5555555555555555 0xBBBBBBBBBBBBBBBB)
      (vec one 0 0)).withBytes [0xC5#8, q.1, 0xC2#8, 0xC2#8, q.2.1])) = some (vec q.2.2 0x5555555555555555 0) := by
  simp only [List.forall_mem_cons, List.not_mem_nil, false_implies, implies_true, and_true]; decide +kernel

/-- V3, V4: the destination is a source. -/
theorem test_vex_destination_is_source : ∀ q ∈ [(0xCA#8, 1#5), (0xD2#8, 2#5)],
    vecAfter q.2 (step ((withVecs (vec ones64 ones64 ones64) (vec two 0x5555555555555555 0xBBBBBBBBBBBBBBBB)
      (vec one 0 0)).withBytes [0xC5#8, 0xF3#8, 0xC2#8, q.1, 0x0E#8])) = some (vec ones64 0x5555555555555555 0) := by
  simp only [List.forall_mem_cons, List.not_mem_nil, false_implies, implies_true, and_true]; decide +kernel

/-- V6: an unmasked condition, by the three-byte prefix. -/
theorem test_vex3_unmasked :
    faultOf (step ({ pair two qnan with mxcsr := 0x1F00#32 }.withBytes
      [0xC4#8, 0xE1#8, 0x73#8, 0xC2#8, 0xC2#8, 0x0E#8])) = some (.xm, 0x1F01#32, 0x1000#64) := by decide +kernel

/-- E13: registers above 7 by `R`, `B` and `vvvv`; `TRUE_US`. -/
theorem test_vex3_high_registers :
    vecAfter 8#5 (step ({ base with v := base.v.set 8 (vec one 7 9) }.withBytes
      [0xC4#8, 0x41#8, 0x3B#8, 0xC2#8, 0xC1#8, 0x1F#8])) = some (vec ones64 7 0) := by decide +kernel

/-! ## The EVEX form: table 2.4 -/

/-- K1, K2, K8 to K10: no write mask. -/
theorem test_evex_result :
    maskAfter 1#3 (step (((pair one two).setKreg 1#3 0xFFFFFFFFFFFFFFFF).withBytes
      [0x62#8, 0xF1#8, 0xF7#8, 0x08#8, 0xC2#8, 0xCA#8, 0x01#8])) = some (1, 0x1F80#32) ∧
    maskAfter 1#3 (step (((pair one two).setKreg 1#3 0xFFFFFFFFFFFFFFFF).withBytes
      [0x62#8, 0xF1#8, 0xF7#8, 0x08#8, 0xC2#8, 0xCA#8, 0x0E#8])) = some (0, 0x1F80#32) ∧
    maskAfter 1#3 (step ({ pair one snan with mxcsr := 0x1F00#32 }.withBytes
      [0x62#8, 0xF1#8, 0xF7#8, 0x18#8, 0xC2#8, 0xCA#8, 0x01#8])) = some (0, 0x1F00#32) ∧
    faultOf (step ({ pair one snan with mxcsr := 0x1F00#32 }.withBytes
      [0x62#8, 0xF1#8, 0xF7#8, 0x08#8, 0xC2#8, 0xCA#8, 0x01#8])) = some (.xm, 0x1F01#32, 0x1000#64) ∧
    maskAfter 0#3 (step ((pair one snan).withBytes
      [0x62#8, 0xF1#8, 0xF7#8, 0x08#8, 0xC2#8, 0xC2#8, 0x04#8])) = some (1, 0x1F81#32) := by decide +kernel

/-- Mask registers wider than 64 bits (R5, R23): all of the destination is written. -/
theorem test_evex_wide_mask :
    maskAfter 1#3 (step ({ (pair one two).setKreg 1#3 (2 ^ 200 - 1) with
      params := { base.params with maxKl := 200 } }.withBytes
      [0x62#8, 0xF1#8, 0xF7#8, 0x09#8, 0xC2#8, 0xCA#8, 0x01#8])) = some (1, 0x1F80#32) := by decide +kernel

/-- K3 to K7: the write mask. -/
theorem test_evex_write_mask :
    maskAfter 1#3 (step (((pair one two).setKreg 2#3 0xFFFFFFFFFFFFFFFE).withBytes
      [0x62#8, 0xF1#8, 0xF7#8, 0x0A#8, 0xC2#8, 0xCA#8, 0x01#8])) = some (0, 0x1F80#32) ∧
    maskAfter 1#3 (step (((pair one two).setKreg 2#3 1).withBytes
      [0x62#8, 0xF1#8, 0xF7#8, 0x0A#8, 0xC2#8, 0xCA#8, 0x01#8])) = some (1, 0x1F80#32) ∧
    maskAfter 1#3 (step (((pair one two).setKreg 1#3 1).withBytes
      [0x62#8, 0xF1#8, 0xF7#8, 0x09#8, 0xC2#8, 0xCA#8, 0x01#8])) = some (1, 0x1F80#32) ∧
    maskAfter 1#3 (step ((pair one two).withBytes
      [0x62#8, 0xF1#8, 0xF7#8, 0x09#8, 0xC2#8, 0xCA#8, 0x01#8])) = some (0, 0x1F80#32) ∧
    maskAfter 1#3 (step ({ (pair one snan).setKreg 1#3 0xFFFFFFFFFFFFFFFF with mxcsr := 0x1F00#32 }.withBytes
      [0x62#8, 0xF1#8, 0xF7#8, 0x0A#8, 0xC2#8, 0xCA#8, 0x01#8])) = some (0, 0x1F00#32) := by decide +kernel

/-- K11: a masked-off read that would fault, suppressed and taken. -/
theorem test_evex_masked_load :
    maskAfter 1#3 (step ({ base with answers := [.segmentViolation] }.withBytes
      [0x62#8, 0xF1#8, 0xF7#8, 0x0A#8, 0xC2#8, 0x08#8, 0x01#8])) = some (0, 0x1F80#32) ∧
    faultOf (step ({ base with
      answers := [.segmentViolation], params := { base.params with maskedLoadFaults := .taken } }.withBytes
      [0x62#8, 0xF1#8, 0xF7#8, 0x0A#8, 0xC2#8, 0x08#8, 0x01#8])) = some (.gp, 0x1F80#32, 0x1000#64) := by decide +kernel

/-- E19: `disp8` counts 8 bytes in the EVEX form. -/
theorem test_evex_disp8 :
    maskAfter 1#3 (step ({ pair one two with mem := twoBytes 0xE 0xF0#8 0xF 0x3F#8 }.withBytes
      [0x62#8, 0xF1#8, 0xF7#8, 0x08#8, 0xC2#8, 0x48#8, 0x01#8, 0x00#8])) = some (1, 0x1F80#32) := by decide +kernel

/-- E24: `b = 1` with a memory operand is #UD. -/
theorem test_evex_broadcast :
    faultOf (step (base.withBytes [0x62#8, 0xF1#8, 0xF7#8, 0x18#8, 0xC2#8, 0x08#8, 0x01#8])) =
      some (.ud, 0x1F80#32, 0x1000#64) := by decide +kernel

/-- Every instruction of the opcode table completes on the launched machine, `pc` past it (R95). -/
theorem test_every_instruction_completes :
    ∀ i ∈ allSamples, pcAfter (exec i base) = some (0x1000#64 + BitVec.ofNat 64 (encode i).length) := by decide +kernel

/-! ## Witnesses: the hypotheses of the obligations can be met -/

/-- The words of one instruction of each form. -/
def word : List Byte := [0xF2#8, 0x0F#8, 0xC2#8, 0xC1#8, 0x01#8]
def wordState : State := base.withBytes word

theorem wordState_inv : wordState.Inv where
  mem := by decide +kernel
  params := by decide +kernel
  vec := by decide +kernel
  mask := by decide +kernel
  pc := by decide +kernel
  mxcsr := by decide +kernel

/-- The invariant, and a base that fits the mode. -/
theorem witness_ResetMeetsInvariant : wordState.Inv ∧ Mode.truncPc wordState.mode 0x2000#64 = 0x2000#64 :=
  ⟨wordState_inv, by decide +kernel⟩

theorem witness_StepKeepsInvariant : wordState.Inv ∧ ∃ t, step wordState = .next t :=
  ⟨wordState_inv, exists_of_isNext (by decide +kernel)⟩

/-- Every constructor, in Mode64; register forms without REX also in Mode32. -/
theorem witness_DecodeEncodeRoundTrip : ∀ i ∈ allSamples, i.wellFormed .mode64 = true := by decide

theorem witness_DecodedIsWellFormed :
    decode .mode64 (word ++ [0x90#8]) = .instr (.cmpsd noPfx ⟨0#3, .reg 1#3⟩ 1#8) [0x90#8] := by decide

theorem witness_DecodeReadsOnlyItsBytes :
    decode .mode64 word = .instr (.cmpsd noPfx ⟨0#3, .reg 1#3⟩ 1#8) [] ∧
    decode .mode64 [0x90#8] = .reject .notInScope ∧ Reject.notInScope ≠ .needMore := by decide

theorem witness_LengthBetweenFiveAndFourteen :
    ∀ q ∈ [(Instr.cmpsd noPfx ⟨0#3, .reg 1#3⟩ 1#8, 5),
        (.vcmpsdEvex ⟨some .fs, true⟩ evexPfx ⟨0#3, .mem (.sib 0#2 0#3 0#3 (.d32 0#32))⟩ 0#8, 14)],
      q.1.wellFormed .mode64 = true ∧ q.1.length = q.2 := by decide

/-- A prefix sequence for each outcome of R73's rule for the legacy form, and what may follow a REX byte. -/
theorem witness_LegacyPrefixRule : (∀ q ∈ [
    ([], Prefixes.mk none false), ([0xF2#8], ⟨none, false⟩), ([0xF0#8, 0xF2#8], ⟨none, false⟩),
    ([0x65#8, 0xF2#8, 0x67#8], ⟨some .gs, true⟩), ([0xF2#8, 0x26#8, 0x2E#8], ⟨some .es, false⟩)],
    (Form.legacy ⟨q.2, none, ⟨0#3, .reg 1#3⟩⟩ 0#8).wellFormed .mode32 = true ∧
    (∀ b ∈ q.1, b ∈ [0xF2#8, 0xF3#8, 0x66#8, 0xF0#8, 0x67#8, 0x26#8, 0x2E#8, 0x36#8, 0x3E#8, 0x64#8, 0x65#8]) ∧
    q.2.a67 = decide (0x67#8 ∈ q.1) ∧ q.2.seg = (q.1.filterMap Seg.ofByte).head?) ∧
    0x67#8 ∈ [0xF2#8, 0xF3#8, 0x66#8, 0xF0#8, 0x67#8, 0x26#8, 0x2E#8, 0x36#8, 0x3E#8, 0x64#8, 0x65#8] ∧
    0x4F#8 = (Rex.mk true true true true).byte := by decide

/-- R75: a REX byte followed by another prefix is refused, beside a LOCK too (log 25). -/
theorem test_decode_rex_before_prefix :
    decode .mode64 [0xF2#8, 0x48#8, 0x67#8, 0x0F#8, 0xC2#8, 0xC1#8, 0x00#8] = .reject .prefixCombination ∧
    decode .mode64 [0xF2#8, 0x40#8, 0xF0#8, 0x0F#8, 0xC2#8, 0xC1#8, 0x00#8] = .reject .prefixCombination := by decide

theorem witness_VexPrefixRule : ∀ f ∈ [Form.vex ⟨⟨some .fs, true⟩, vexOps.vex, vexOps.t⟩ 0#8,
      .evex ⟨⟨some .fs, true⟩, evexPfx, evexOps.t⟩ 0#8],
    f.mandatory = [] ∧ f.wellFormed .mode64 = true ∧
    ∀ pre ∈ [[0x64#8, 0x67#8], [0x67#8, 0xF3#8, 0x64#8], [0x64#8, 0x64#8, 0x67#8]],
      (∀ b ∈ pre, b ∈ [0xF2#8, 0xF3#8, 0x66#8, 0xF0#8, 0x67#8, 0x26#8, 0x2E#8, 0x36#8, 0x3E#8, 0x64#8, 0x65#8]) ∧
      f.pfx.a67 = decide (0x67#8 ∈ pre) ∧ f.pfx.seg = (pre.filterMap Seg.ofByte).head? := by decide

/-- The one hypothesis, on the operand, in each mode; and bytes for each outcome in Mode32: another map, another `pp`,
another opcode, #UD, refused `z`, refused high register, an instruction. -/
theorem witness_EvexFieldRule :
    (∀ m ∈ [Mode.mode16, .mode32, .mode64], (RegMem.reg 2#3).wellFormed (a16Of m false) = true) ∧
    [decode .mode32 [0x62#8, 0xF2#8, 0xF7#8, 0x08#8, 0xC2#8, 0xCA#8, 0x01#8],
      decode .mode32 [0x62#8, 0xF1#8, 0xF6#8, 0x08#8, 0xC2#8, 0xCA#8, 0x01#8],
      decode .mode32 [0x62#8, 0xF1#8, 0xF7#8, 0x08#8, 0xC3#8, 0xCA#8, 0x01#8],
      decode .mode32 [0x62#8, 0xF1#8, 0x77#8, 0x08#8, 0xC2#8, 0xCA#8, 0x01#8],
      decode .mode32 [0x62#8, 0xF1#8, 0xF7#8, 0x88#8, 0xC2#8, 0xCA#8, 0x01#8],
      decode .mode32 [0x62#8, 0xD1#8, 0xF7#8, 0x08#8, 0xC2#8, 0xCA#8, 0x01#8],
      decode .mode32 [0x62#8, 0xF1#8, 0xF7#8, 0x08#8, 0xC2#8, 0xCA#8, 0x01#8]] =
    [.reject .notInScope, .reject .notInScope, .reject .notInScope, .reject .undefinedOpcode, .reject .zeroingMarker,
      .reject .highRegister, .instr (.vcmpsdEvex noPfx evexPfx ⟨1#3, .reg 2#3⟩ 1#8) []] := by decide

/-- The one hypothesis, on the operand, in each mode; and bytes for each outcome: LDS in Mode32, another `pp`, another
map, #UD in Mode16, refused high register. -/
theorem witness_VexFieldRule :
    (∀ m ∈ [Mode.mode16, .mode32, .mode64], (RegMem.reg 2#3).wellFormed (a16Of m false) = true) ∧
    [decode .mode32 [0xC5#8, 0x73#8, 0xC2#8, 0xC2#8, 0x11#8], decode .mode64 [0xC5#8, 0xF1#8, 0xC2#8, 0xC2#8, 0x11#8],
      decode .mode64 [0xC4#8, 0xE2#8, 0x73#8, 0xC2#8, 0xC2#8, 0x11#8],
      decode .mode16 [0xC5#8, 0xF3#8, 0xC2#8, 0xC2#8, 0x11#8],
      decode .mode32 [0xC4#8, 0xC1#8, 0x73#8, 0xC2#8, 0xC2#8, 0x11#8]] =
    [.reject .notInScope, .reject .notInScope, .reject .notInScope, .reject .undefinedOpcode,
      .reject .highRegister] := by decide

theorem witness_NamedVectorRegistersExist :
    (Form.legacy ⟨noPfx, some rexPfx, ⟨7#3, .reg 7#3⟩⟩ 0#8).wellFormed base.mode = true ∧
    (Form.vex ⟨noPfx, .two ⟨true, 15#4, false⟩, ⟨7#3, .reg 7#3⟩⟩ 0#8).wellFormed base.mode = true ∧
    (Form.evex ⟨noPfx, ⟨true, true, 15#4, 0#2, false, true, 0#3⟩, ⟨7#3, .reg 7#3⟩⟩ 0#8).wellFormed base.mode = true ∧
    base.enabled .evex = true := by decide +kernel

theorem witness_StepRunsDecodedInstruction :
    ∃ rest, decode wordState.mode wordState.fetch.1 = .instr (.cmpsd noPfx ⟨0#3, .reg 1#3⟩ 1#8) rest :=
  ⟨List.replicate 10 0#8, by decide +kernel⟩

/-- For every instruction of the opcode table, placed at `pc`. -/
theorem witness_StepRunsEncodedInstruction : ∀ i ∈ allSamples,
    i.wellFormed (base.withBytes (encode i)).mode = true ∧
    ∀ (j : Nat) (h : j < (encode i).length), (base.withBytes (encode i)).pastText j = false ∧
      fetchFaultAt (base.withBytes (encode i)).fetchFaults ((base.withBytes (encode i)).linear .cs
        (base.withBytes (encode i)).pc j) = none ∧
      Memory.read (base.withBytes (encode i)).mem ((base.withBytes (encode i)).linear .cs
        (base.withBytes (encode i)).pc j) = (encode i)[j] := by decide +kernel

/-- The second clause: a launch of a program of two instructions. -/
theorem witness_StepRunsEncodedInstruction_launched :
    (Instr.cmpsd noPfx ⟨0#3, .reg 1#3⟩ 1#8).wellFormed base.mode = true ∧ Memory.wf base.mem = true ∧
    (encode (Instr.cmpsd noPfx ⟨0#3, .reg 1#3⟩ 1#8) ++ word).length ≤ 2 ^ 32 ∧
    ∀ j, j < (Instr.cmpsd noPfx ⟨0#3, .reg 1#3⟩ 1#8).length →
      fetchFaultAt base.fetchFaults (base.linear .cs 0x2000#64 j) = none := by decide +kernel

/-- The first and the last byte of an instruction cannot be fetched. -/
def brokenFetch (n : Nat) : State := { wordState with fetchFaults := [(0x1000 + n, .pf 0x10#32 0x1000#64)] }

theorem witness_FetchFaultComesFirst : ∀ n ∈ [0, 4],
    (Instr.cmpsd noPfx ⟨0#3, .reg 1#3⟩ 1#8).wellFormed (brokenFetch n).mode = true ∧
    n < (Instr.cmpsd noPfx ⟨0#3, .reg 1#3⟩ 1#8).length ∧
    (∀ (j : Nat) (h : j < (encode (Instr.cmpsd noPfx ⟨0#3, .reg 1#3⟩ 1#8)).length), j < n →
      (brokenFetch n).pastText j = false ∧
      fetchFaultAt (brokenFetch n).fetchFaults ((brokenFetch n).linear .cs (brokenFetch n).pc j) = none ∧
      Memory.read (brokenFetch n).mem ((brokenFetch n).linear .cs (brokenFetch n).pc j) =
        (encode (Instr.cmpsd noPfx ⟨0#3, .reg 1#3⟩ 1#8))[j]) ∧
    (brokenFetch n).pastText n = false ∧
    fetchFaultAt (brokenFetch n).fetchFaults ((brokenFetch n).linear .cs (brokenFetch n).pc n) =
      some (.pf 0x10#32 0x1000#64) := by decide +kernel

/-- A launched program of one instruction. -/
def textState : State := base.withProgram 0x1000#64 word

/-- The program counter and the program text after a step. -/
def positionAfter : Result → Option (BitVec 64 × Option ProgramText)
  | .next t => some (t.pc, t.text)
  | .fault _ => none
  | .refused _ => none

/-- R247: the run of the program ends at `base + n`. -/
theorem textState_ends : ∃ t, step textState = .next t ∧ t.pc = 0x1005#64 ∧ t.text = some ⟨0x1000#64, 5⟩ := by
  have h : positionAfter (step textState) = some (0x1005#64, some ⟨0x1000#64, 5⟩) := by decide +kernel
  generalize step textState = r at h
  match r with
  | .next t =>
    simp only [positionAfter, Option.some.injEq, Prod.mk.injEq] at h
    exact ⟨t, rfl, h⟩
  | .fault f => cases h
  | .refused f => cases h

theorem textState_steps : ∃ t, step textState = .next t := textState_ends.imp fun _ h => h.1

/-- A successful run exists, so the rule on its end is not empty. -/
theorem test_successful_run : ∃ t, Successful textState t := by
  obtain ⟨t, hs, hp, ht⟩ := textState_ends
  exact ⟨t, ⟨_, rfl, rfl⟩, 0, ⟨t, hs, rfl⟩, _, ht, by rw [hp]; decide⟩

theorem witness_StepStaysInProgramText :
    (Memory.wf base.mem = true ∧ word.length ≤ 2 ^ 32) ∧
    (textState.text = some ⟨0x1000#64, 5⟩ ∧ (0x1000#64).toNat ≤ textState.pc.toNat ∧ (0x1000#64).toNat + 5 < 2 ^ 64 ∧
      Mode.truncPc textState.mode (BitVec.ofNat 64 (0x1000 + 5)) = BitVec.ofNat 64 (0x1000 + 5) ∧
      ∃ t, step textState = .next t) ∧
    State.atEnd { textState with pc := 0x1005#64 } ∧ ∃ t, Successful textState t :=
  ⟨by decide +kernel, ⟨rfl, by decide +kernel, by decide, by decide +kernel, textState_steps⟩, ⟨_, rfl, by decide +kernel⟩, test_successful_run⟩

theorem witness_RunLengthIsBounded :
    textState.text = some ⟨0x1000#64, 5⟩ ∧ textState.pc = 0x1000#64 ∧
    Mode.truncPc textState.mode (BitVec.ofNat 64 (0x1000 + 5)) = BitVec.ofNat 64 (0x1000 + 5) ∧
    0x1000 + 5 < 2 ^ 64 ∧ ∃ t, Runs 1 textState t :=
  ⟨rfl, by decide +kernel, by decide +kernel, by decide, textState_steps.imp fun t h => ⟨t, h, rfl⟩⟩

theorem witness_FifteenPrefixBytesRaiseGP :
    (base.withBytes (List.replicate 15 0x66#8)).text = none ∧
    (base.withBytes (List.replicate 15 0x66#8)).fetchFaults = [] ∧
    ∀ j, j < 15 → Memory.read (base.withBytes (List.replicate 15 0x66#8)).mem
      ((base.withBytes (List.replicate 15 0x66#8)).linear .cs (base.withBytes (List.replicate 15 0x66#8)).pc j) ∈
      [0xF2#8, 0xF3#8, 0x66#8, 0xF0#8, 0x67#8, 0x26#8, 0x2E#8, 0x36#8, 0x3E#8, 0x64#8, 0x65#8] := by decide +kernel

/-- A state for each rejection of the decoder. -/
theorem witness_StepAnswersRejections : ∀ q ∈ [
    (Mode.mode64, [0xF0#8, 0xF2#8, 0x0F#8, 0xC2#8, 0xC1#8, 0x00#8], Reject.undefinedOpcode),
    (.mode64, [0x90#8], .notInScope), (.mode64, [0x66#8, 0xF2#8, 0x0F#8, 0xC2#8, 0xC1#8, 0x00#8], .prefixCombination),
    (.mode64, [0x62#8, 0xF1#8, 0xF7#8, 0x88#8, 0xC2#8, 0xCA#8, 0x01#8], .zeroingMarker),
    (.mode32, [0xC4#8, 0xC1#8, 0x73#8, 0xC2#8, 0xC2#8, 0x11#8], .highRegister)],
    decode q.1 { base.withBytes q.2.1 with mode := q.1 }.fetch.1 = .reject q.2.2 := by decide +kernel

theorem witness_EveryFormUndefinedInMode16 : State.reset.mode = .mode16 := rfl

/-- Each condition of R202 on its own. -/
theorem witness_UndefinedOpcodeConditions :
    (∃ i o imm, Instr.form i = .legacy o imm) ∧ (∃ i o imm, Instr.form i = .vex o imm) ∧
    (∃ i o imm, Instr.form i = .evex o imm ∧ o.evex.bc = true ∧ isMem o.t.rm = true) ∧
    State.reset.mode = .mode16 ∧ ({ base with params := { base.params with hasSse2 := false } }).params.hasSse2 = false ∧
    ({ base with cr0 := 4#64 }).cr0.getLsbD 2 = true ∧ State.reset.cr4.getLsbD 9 = false ∧
    State.reset.cr4.getLsbD 18 = false ∧ (∀ n ∈ [1, 2, 5, 6, 7], State.reset.xcr0.getLsbD n = false) :=
  ⟨⟨.cmpeqsd legacyOps, _, _, rfl⟩, ⟨.vcmpeqsdVex vexOps, _, _, rfl⟩,
    ⟨.vcmpeqsdEvex ⟨noPfx, { evexPfx with bc := true }, evexMemOps.t⟩, _, _, rfl, rfl, rfl⟩, by decide +kernel⟩

theorem witness_EnabledUnderLaunchPremises : ∀ m ∈ [Mode.mode32, .mode64], m ≠ .mode16 ∧
    base.params.hasSse2 = true ∧ base.params.hasAvx = true ∧ base.params.hasAvx512f = true ∧
    base.cr0.getLsbD 2 = false ∧ base.cr4.getLsbD 9 = true ∧ base.cr4.getLsbD 18 = true ∧
    ∀ n ∈ [1, 2, 5, 6, 7], base.xcr0.getLsbD n = true := by decide +kernel

/-- The least `imm8` with a reserved bit, under both parameters, and the greatest without. -/
theorem witness_ReservedImmediateBits :
    base.enabled .legacy = true ∧ base.enabled .vex = true ∧ base.enabled .evex = true ∧
    base.params.immReserved = .refuse ∧ 8 ≤ (8#8).toNat ∧ 32 ≤ (32#8).toNat ∧ evexFieldsOk evexOps = true ∧
    (7#8).toNat < 8 ∧ (31#8).toNat < 32 ∧
    ({ base with params := { base.params with immReserved := .ignore } }).params.immReserved = .ignore := by
  decide +kernel

/-- The largest `imm8` without a reserved bit. -/
theorem witness_TaskSwitchedRaisesNM :
    ({ base with cr0 := 8#64 }).cr0.getLsbD 3 = true ∧ ({ base with cr0 := 8#64 }).enabled .legacy = true ∧
    ({ base with cr0 := 8#64 }).enabled .vex = true ∧ ({ base with cr0 := 8#64 }).enabled .evex = true ∧
    evexFieldsOk evexOps = true ∧ State.immOk { base with cr0 := 8#64 } .legacy 7#8 ∧
    State.immOk { base with cr0 := 8#64 } .vex 31#8 ∧ State.immOk { base with cr0 := 8#64 } .evex 31#8 := by
  unfold State.immOk; decide +kernel

theorem base_ready (f : FormKind) : base.ready f := by
  unfold State.ready; revert f; intro f; cases f <;> decide +kernel

/-- Every constructor of the legacy form. -/
theorem witness_CmpsdCompletes :
    base.ready .legacy ∧ ∀ q ∈ legacySamples, q.1.form = .legacy q.2.1 q.2.2 ∧ base.immOk .legacy q.2.2 ∧
      legacyB base q.2.1 q.1.length = .value 0#64 ∧
      invalid (base.vreg (destVec (rexBits q.2.1.rex) q.2.1.t))[0] 0#64 ((q.2.2.extractLsb' 0 3).setWidth 5) = false ∧
      denorm (base.vreg (destVec (rexBits q.2.1.rex) q.2.1.t))[0] 0#64 base.mxcsr = false :=
  ⟨base_ready _, by unfold State.immOk; decide +kernel⟩

/-- Every constructor of the VEX form. -/
theorem witness_VcmpsdVexCompletes :
    base.ready .vex ∧ ∀ q ∈ vexSamples, q.1.form = .vex q.2.1 q.2.2 ∧ base.immOk .vex q.2.2 ∧
      vexB base q.2.1 q.1.length = .value 0#64 ∧
      invalid (base.vreg (vexSrc1 q.2.1))[0] 0#64 (q.2.2.extractLsb' 0 5) = false ∧
      denorm (base.vreg (vexSrc1 q.2.1))[0] 0#64 base.mxcsr = false :=
  ⟨base_ready _, by unfold State.immOk; decide +kernel⟩

/-- Every constructor of the EVEX form, without a write mask. -/
theorem witness_VcmpsdEvexCompletes :
    base.ready .evex ∧ ∀ q ∈ evexSamples, q.1.form = .evex q.2.1 q.2.2 ∧ base.immOk .evex q.2.2 ∧
      evexFieldsOk q.2.1 = true ∧ q.2.1.evex.aaa = 0#3 ∧ evexB base q.2.1 q.1.length = .value 0#64 ∧
      invalid (base.vreg (evexSrc1 q.2.1.evex))[0] 0#64 (q.2.2.extractLsb' 0 5) = false ∧
      denorm (base.vreg (evexSrc1 q.2.1.evex))[0] 0#64 base.mxcsr = false :=
  ⟨base_ready _, by unfold State.immOk; decide +kernel⟩

/-- Under a write mask whose bit is 1, and under sae. -/
theorem witness_VcmpsdEvexCompletes_masked :
    (base.setKreg 2#3 1).ready .evex ∧ ((base.setKreg 2#3 1).kreg 2#3).testBit 0 = true ∧
    evexB (base.setKreg 2#3 1) evexMemOps 7 = .value 0#64 ∧
    (({ evexPfx with bc := true } : Evex).bc && !isMem evexOps.t.rm) = true := by
  unfold State.ready; decide +kernel

/-- A register operand, and a memory operand that is readable or suppressed. -/
theorem witness_VcmpsdEvexMaskedOffCompletes :
    base.ready .evex ∧ ∀ o ∈ [evexMemOps, { evexMemOps with t := evexOps.t }],
      (Instr.vcmpeqsdEvex o).form = .evex o 0#8 ∧ base.immOk .evex 0#8 ∧ evexFieldsOk o = true ∧ o.evex.aaa ≠ 0#3 ∧
      (base.kreg o.evex.aaa).testBit 0 = false ∧ base.params.maskedLoadFaults = .suppressed ∧
      evexB base o (Instr.vcmpeqsdEvex o).length = .value 0#64 :=
  ⟨base_ready _, by unfold State.immOk; decide +kernel⟩

/-- A masked-off read that page-faults, and one that does not, under each of the three parameters. -/
theorem witness_MaskedLoadFaultsParameter : ∀ p ∈ [MaskedLoadFaults.taken, .suppressed, .either],
    ∀ q ∈ [([MemAnswer.pageFault 0#32 0#64], MemResult.fault (.pf 0#32 0#64)), ([.value one], .value one)],
      State.ready { base with answers := q.1, params := { base.params with maskedLoadFaults := p } } .evex ∧
      State.immOk { base with answers := q.1, params := { base.params with maskedLoadFaults := p } } .evex 0#8 ∧
      evexFieldsOk evexMemOps = true ∧ evexMemOps.evex.aaa ≠ 0#3 ∧ isMem evexMemOps.t.rm = true ∧
      (base.kreg evexMemOps.evex.aaa).testBit 0 = false ∧
      evexB { base with answers := q.1, params := { base.params with maskedLoadFaults := p } } evexMemOps 7 = q.2 := by
  unfold State.immOk State.ready; decide +kernel

/-- A machine whose next read page-faults. -/
def faultState : State := { base with answers := [.pageFault 0#32 0#64] }

theorem witness_MemoryFaultIsRaised :
    (∀ f ∈ [FormKind.legacy, .vex, .evex], faultState.ready f ∧ faultState.immOk f 0#8) ∧
    (Instr.cmpeqsd legacyMemOps).form = .legacy legacyMemOps 0#8 ∧
    legacyB faultState legacyMemOps (Instr.cmpeqsd legacyMemOps).length = .fault (.pf 0#32 0#64) ∧
    (Instr.vcmpeqsdVex vexMemOps).form = .vex vexMemOps 0#8 ∧
    vexB faultState vexMemOps (Instr.vcmpeqsdVex vexMemOps).length = .fault (.pf 0#32 0#64) ∧
    evexFieldsOk evexMemOps = true ∧ ((faultState.setKreg 2#3 1).kreg evexMemOps.evex.aaa).testBit 0 = true ∧
    evexB (faultState.setKreg 2#3 1) evexMemOps (Instr.vcmpeqsdEvex evexMemOps).length = .fault (.pf 0#32 0#64) := by
  unfold State.immOk State.ready; decide +kernel

/-- Both conditions unmasked: `v[1]` holds a signalling NaN or a denormal, `v[2]` a number. -/
theorem witness_UnmaskedConditionRaises : ∀ a ∈ [snan, 1#64],
    (∀ f ∈ [FormKind.legacy, .vex, .evex], State.ready { pair a two with mxcsr := 0x1E00#32 } f ∧
      State.immOk { pair a two with mxcsr := 0x1E00#32 } f 1#8) ∧
    legacyB { pair a two with mxcsr := 0x1E00#32 } ⟨noPfx, none, ⟨1#3, .reg 2#3⟩⟩ 5 = .value two ∧
    vexB { pair a two with mxcsr := 0x1E00#32 } vexOps 5 = .value two ∧
    evexB { pair a two with mxcsr := 0x1E00#32 } evexOps 7 = .value two ∧
    evexFieldsOk evexOps = true ∧ evexOps.evex.aaa = 0#3 ∧ evexOps.evex.bc = false ∧
    ((pair a two).vreg 1#5)[0] = a ∧ (0x1E00#32).getLsbD 7 = false ∧ (0x1E00#32).getLsbD 8 = false ∧
    (invalid snan two 1#5 = true ∧ denorm 1#64 two 0x1E00#32 = true) := by
  simp only [List.forall_mem_cons, List.not_mem_nil, false_implies, implies_true, and_true]; unfold State.immOk State.ready; decide +kernel

/-- Every constructor answers a next state somewhere. -/
theorem witness_EveryInstructionFrame : ∀ i ∈ allSamples, ∃ t, exec i base = .next t := by
  have h : ∀ i ∈ allSamples, isNext (exec i base) = true := by decide +kernel
  exact fun i hi => exists_of_isNext (h i hi)

theorem exists_of_faultOf {r : Result} {e : Exception} {m : BitVec 32} {p : BitVec 64}
    (h : faultOf r = some (e, m, p)) : ∃ t, r = .fault (.exception e t) := by
  match r with
  | .next t => cases h
  | .fault (.exception e' t) => cases h; exact ⟨t, rfl⟩
  | .refused f => cases h

theorem witness_FaultsArePrecise :
    (∃ t, exec (Instr.vcmpltsdEvex evexOps) { pair one snan with mxcsr := 0x1F00#32 } = .fault (.exception .xm t)) ∧
    (∃ t, step ({ pair two qnan with mxcsr := 0x1F00#32 }.withBytes
      [0xC4#8, 0xE1#8, 0x73#8, 0xC2#8, 0xC2#8, 0x0E#8]) = .fault (.exception .xm t)) :=
  ⟨exists_of_faultOf (m := 0x1F01#32) (p := 0x1000#64) (by decide +kernel), exists_of_faultOf test_vex3_unmasked⟩

theorem witness_RunsChangeNoMemoryOrText :
    (∃ t, Runs 1 textState t) ∧ Runs 0 textState textState ∧
    (∃ t, Runs 0 { base with mxcsr := 0x1F83#32 } t ∧ t.mxcsr.getLsbD 0 = true ∧ t.mxcsr.getLsbD 1 = true) :=
  ⟨textState_steps.imp fun t h => ⟨t, h, rfl⟩, rfl, ⟨_, rfl, by decide +kernel⟩⟩

theorem witness_PredicateStructure : (0#5).extractLsb' 2 2 = 0#2 ∧ (3#5).extractLsb' 2 2 = 0#2 := by decide

theorem witness_RelationEqualsKeyComparison : isNaN one = false ∧ isNaN two = false ∧ isNaN snan = true := by decide +kernel

theorem witness_RelationCorners : fpClass one ≠ .nan ∧ fpClass one ≠ .infinity := by decide +kernel

theorem witness_InvalidOperationCondition :
    isSNaN snan = true ∧ isSNaN qnan = false ∧ isQNaN qnan = true ∧ isNaN one = false ∧ isSNaN one = false := by
  decide +kernel

/-- The least and the greatest denormal. -/
theorem witness_DazComparesDenormalsAsZero :
    (0x1F80#32).getLsbD 6 = false ∧ isDenormal one = false ∧ (0x1FC0#32).getLsbD 6 = true ∧ isDenormal 1#64 = true ∧ isDenormal 0x000FFFFFFFFFFFFF#64 = true := by decide +kernel

theorem witness_CompareSetsOnlyItsFlags :
    (∃ r mx, compareOp one two 1#5 false true 0x1F80#32 = .done r mx) ∧
    (∃ e mx, compareOp snan two 1#5 false true 0x1F00#32 = .raises e mx) :=
  ⟨⟨true, 0x1F80#32, by decide +kernel⟩, ⟨.xm, 0x1F01#32, by decide +kernel⟩⟩

theorem witness_EffectiveAddressIsExact :
    base.mode = .mode64 ∧ ({ base with mode := .mode32 }.mode = .mode32 ∧ noPfx.a67 = false) := by decide +kernel

theorem witness_SixteenBitAddressTable : { base with mode := .mode32 }.mode = .mode32 ∧ (Prefixes.mk none true).a67 = true := by
  decide +kernel

theorem witness_SegmentOfTheOperand :
    (Prefixes.mk (some .gs) false).seg = some .gs ∧ noPfx.seg = none ∧ base.mode = .mode64 ∧
    { base with mode := .mode32 }.mode ≠ .mode64 := by decide +kernel

theorem witness_AlignmentCheckOnly :
    base.answers = [] ∧ ({ base with answers := [.memory] }).answers = [.memory] ∧
    ({ base with answers := [.value one] }).answers = [.value one] := ⟨rfl, rfl, rfl⟩

theorem witness_OracleFaultsOfARead :
    ({ base with answers := [.segmentViolation] }).answers = [.segmentViolation] ∧
    ({ base with answers := [.pageFault 0#32 0#64] }).answers = [.pageFault 0#32 0#64] := ⟨rfl, rfl⟩

/-- A register operand, and a memory operand with a base register. -/
theorem witness_TwoAndThreeByteVexAgree : ∀ m ∈ [ModRM.mk 0#3 (.reg 2#3), ⟨0#3, .mem (.based 0#3 .none)⟩],
    (∀ d, m.rm = .mem (.direct d) → base.mode ≠ .mode64) ∧
    ∃ t, exec (.vcmpsdVex2 noPfx ⟨false, 1#4, false⟩ m 0x11#8) base = .next t := by
  intro m hm
  rcases List.mem_pair.mp hm with rfl | rfl
  · exact ⟨fun d h => (by cases h), exists_of_isNext (by decide +kernel)⟩
  · exact ⟨fun d h => (by cases h), exists_of_isNext (by decide +kernel)⟩

/-- With the write mask's bit 0 and 1, and with the destination as the write mask. -/
theorem witness_WriteMaskUpperBitsUnread : ∀ a ∈ [1#3, 2#3], ∀ m ∈ [0, 1],
    (m ||| 2).testBit 0 = ((base.setKreg a m).kreg a).testBit 0 ∧
    isNext (exec (.vcmpltsdEvex ⟨noPfx, { evexPfx with aaa := a }, evexOps.t⟩) (base.setKreg a m)) = true := by
  simp only [List.forall_mem_cons, List.not_mem_nil, false_implies, implies_true, and_true]; decide +kernel

theorem witness_MaskRegisterZeroIsNoWriteMask :
    (Instr.vcmpltsdEvex evexOps).form = .evex evexOps 1#8 ∧ evexOps.evex.aaa = 0#3 ∧
    ∃ t, exec (.vcmpltsdEvex evexOps) base = .next t :=
  ⟨rfl, rfl, exists_of_isNext (by decide +kernel)⟩

end Sys2Proof.Tests
end

section
/-! SUPPORT. The statements about the state of 10_state.md: what a form that answers a next state wrote, the invariant,
the frame, and the registers a form names. -/

namespace Sys2Proof.Machine

/-! ## The flags of a comparison (40_predicates.md R140) -/

theorem flagged_eq_withFlags (a b : Word) (p : BitVec 5) (mx : BitVec 32) :
    flagged a b p mx = withFlags mx (invalid a b p) (denorm a b mx) := by
  unfold flagged flagInvalid withFlags setDE setIE
  cases invalid a b p <;> cases denorm a b mx <;> simp

@[simp] theorem withFlags_none (mx : BitVec 32) : withFlags mx false false = mx := by simp [withFlags]

/-- Bit 0 is IE and bit 1 is DE; no other bit is written. -/
theorem withFlags_getLsbD (mx : BitVec 32) (ie de : Bool) (n : Nat) :
    (withFlags mx ie de).getLsbD n = (mx.getLsbD n || (ie && decide (n = 0)) || (de && decide (n = 1))) := by
  have h1 : (1#32).getLsbD n = decide (n = 0) := by simp [BitVec.getLsbD_one]
  have h2 : (2#32).getLsbD n = decide (n = 1) := BitVec.getLsbD_twoPow (w := 32) 1 n |>.trans (by simp [eq_comm])
  cases ie <;> cases de <;> simp [withFlags, h1, h2]

/-- The flags leave the reserved bits of MXCSR alone (R25). -/
theorem withFlags_reserved (mx : BitVec 32) (ie de : Bool) :
    (withFlags mx ie de).extractLsb' 16 16 = mx.extractLsb' 16 16 := by
  ext i hi
  have h1 : 16 + i ≠ 1 := by omega
  simp [withFlags_getLsbD, BitVec.getElem_extractLsb', h1]

/-! ## What a form that answers a next state wrote -/

/-- The state a form has reached when it writes its result: the oracle has moved on and the flags are set. -/
def State.beforeWrite (s : State) (answers : List MemAnswer) (draws : Nat) (ie de : Bool) : State :=
  { s with answers := answers, draws := draws, mxcsr := withFlags s.mxcsr ie de }

/-- A form's one register write, from `u` to `w` (R161, R171, R181). -/
def Form.WritesResult (f : Form) (u w : State) : Prop :=
  match f with
  | .legacy o _ => ∃ r, w = u.setVreg (destVec (rexBits o.rex) o.t)
      (withLow (u.vreg (destVec (rexBits o.rex) o.t)) (boolWord r))
  | .vex o _ => ∃ r, w = u.setVreg (destVec (vexBits o.vex) o.t) (vexValue (u.vreg (vexSrc1 o)) r)
  | .evex o _ => ∃ r, w = u.setKreg o.t.reg (boolMask r)

/-- The three forms' `mx` is `MXCSR` with flags set. -/
theorem exists_withFlags {mx old : BitVec 32} (h : mx = old ∨ ∃ a b p, mx = flagged a b p old) :
    ∃ ie de, mx = withFlags old ie de := by
  rcases h with rfl | ⟨a, b, p, rfl⟩
  · exact ⟨false, false, (withFlags_none _).symm⟩
  · exact ⟨_, _, flagged_eq_withFlags a b p old⟩

theorem State.afterRead_setMxcsr (s : State) (rm : RegMem) (ie de : Bool) :
    (s.afterRead rm).setMxcsr (withFlags s.mxcsr ie de) =
      s.beforeWrite (s.afterRead rm).answers s.draws ie de := by
  unfold State.afterRead; split <;> rfl

theorem State.drawn_eq (s : State) : s.drawn = { s with draws := s.drawn.draws } := by
  unfold State.drawn; split <;> rfl

/-- The states an EVEX form may write from differ from `s` in the oracle positions and the flags only. -/
theorem State.oracle_setMxcsr {s u : State} (h : u = s ∨ u = s.answered ∨ u = s.drawn ∨ u = s.drawn.answered)
    (ie de : Bool) : u.setMxcsr (withFlags s.mxcsr ie de) = s.beforeWrite u.answers u.draws ie de := by
  rcases h with rfl | rfl | rfl | rfl
  · rfl
  · rfl
  · rw [s.drawn_eq]; rfl
  · rw [s.drawn_eq]; rfl

/-- A form that answers a next state has moved the oracle, set flags, written one register and moved `pc`. -/
theorem Form.run_next {f : Form} {s t : State} (h : Form.run f s = .next t) :
    ∃ answers draws ie de w,
      Form.WritesResult f (s.beforeWrite answers draws ie de) w ∧ t = w.advance f.length := by
  match f with
  | .legacy o imm =>
    obtain ⟨r, mx, hmx, rfl⟩ := runLegacy_next h
    obtain ⟨ie, de, rfl⟩ := exists_withFlags hmx
    exact ⟨_, _, ie, de, _, ⟨r, rfl⟩, by rw [legacyDone, s.afterRead_setMxcsr]; rfl⟩
  | .vex o imm =>
    obtain ⟨r, mx, hmx, rfl⟩ := runVex_next h
    obtain ⟨ie, de, rfl⟩ := exists_withFlags hmx
    exact ⟨_, _, ie, de, _, ⟨r, rfl⟩, by rw [vexDone, s.afterRead_setMxcsr]; rfl⟩
  | .evex o imm =>
    obtain ⟨u, r, mx, hmx, hu, rfl⟩ := runEvex_next h
    obtain ⟨ie, de, rfl⟩ := exists_withFlags hmx
    exact ⟨_, _, ie, de, _, ⟨r, rfl⟩, by rw [evexWritten, State.oracle_setMxcsr hu]⟩

/-! ## Every operation keeps the invariant -/

theorem Mode.truncPc_truncPc (m : Mode) (a : BitVec 64) : Mode.truncPc m (Mode.truncPc m a) = Mode.truncPc m a := by
  cases m
  · simp [Mode.truncPc]
  · simp [Mode.truncPc]
  · rfl

theorem State.Inv.beforeWrite {s : State} (h : s.Inv) (answers : List MemAnswer) (draws : Nat) (ie de : Bool) :
    (s.beforeWrite answers draws ie de).Inv :=
  { h with mxcsr := (withFlags_reserved s.mxcsr ie de).trans h.mxcsr }

theorem State.Inv.advance {s : State} (h : s.Inv) (len : Nat) : (s.advance len).Inv :=
  { h with pc := Mode.truncPc_truncPc _ _ }

/-- A register may be written with a value whose absent elements are 0 (R20, log 3). -/
theorem State.Inv.setVreg {s : State} (h : s.Inv) (n : BitVec 5) {r : VecReg}
    (hr : ∀ j : Fin 8, s.params.vlmax.elements ≤ j.val → r[j] = 0#64) : (s.setVreg n r).Inv :=
  { h with
    vec := fun n' j hj => by
      rw [State.setVreg_vreg]
      split
      · exact hr j hj
      · exact h.vec n' j hj
    mask := fun n' => by rw [State.setVreg_kreg]; exact h.mask n' }

/-- A mask register may be written with a value of the register's width (R23, log 3). -/
theorem State.Inv.setKreg {s : State} (h : s.Inv) (n : BitVec 3) {r : MaskReg} (hr : r < 2 ^ s.params.maxKl) :
    (s.setKreg n r).Inv :=
  { h with
    vec := fun n' j hj => by rw [State.setKreg_vreg]; exact h.vec n' j hj
    mask := fun n' => by
      rw [State.setKreg_kreg]
      split
      · exact hr
      · exact h.mask n' }

/-- Every configuration has the two elements of an XMM register. -/
theorem VlMax.two_le_elements (v : VlMax) : 2 ≤ v.elements := by cases v <;> decide

theorem withLow_getElem_of_pos (old : VecReg) (w : Word) {j : Fin 8} (hj : 0 < j.val) :
    (withLow old w)[j] = old[j] := by
  simp [withLow, Vector.getElem_set_ne, hj.ne]

theorem vexValue_getElem_of_two_le (src1 : VecReg) (r : Bool) {j : Fin 8} (hj : 2 ≤ j.val) :
    (vexValue src1 r)[j] = 0#64 := by
  match j with
  | 0 | 1 => simp at hj
  | 2 | 3 | 4 | 5 | 6 | 7 => rfl

/-- The EVEX result fits every mask register, for `MAX_KL >= 1` (R5). -/
theorem boolMask_lt {p : Params} (h : p.legal = true) (r : Bool) : boolMask r < 2 ^ p.maxKl := by
  have h2 : 2 ^ 1 ≤ 2 ^ p.maxKl := Nat.pow_le_pow_right (by decide) (of_decide_eq_true h)
  have h1 : boolMask r ≤ 1 := by cases r <;> decide
  exact h1.trans_lt h2

theorem Form.WritesResult.inv {f : Form} {u w : State} (hw : Form.WritesResult f u w) (h : u.Inv) : w.Inv := by
  have two : ∀ j : Fin 8, u.params.vlmax.elements ≤ j.val → 2 ≤ j.val := fun _ hj =>
    (VlMax.two_le_elements _).trans hj
  match f, hw with
  | .legacy o _, ⟨r, hw⟩ =>
    subst hw
    refine h.setVreg _ fun j hj => ?_
    rw [withLow_getElem_of_pos _ _ (Nat.lt_of_lt_of_le Nat.two_pos (two j hj))]
    exact h.vec _ j hj
  | .vex o _, ⟨r, hw⟩ =>
    subst hw
    exact h.setVreg _ fun j hj => vexValue_getElem_of_two_le _ r (two j hj)
  | .evex o _, ⟨r, hw⟩ =>
    subst hw
    exact h.setKreg _ (boolMask_lt h.params r)

/-- Every form keeps the invariant. -/
theorem Form.run_inv {f : Form} {s t : State} (hs : s.Inv) (h : Form.run f s = .next t) : t.Inv := by
  obtain ⟨answers, draws, ie, de, w, hw, rfl⟩ := Form.run_next h
  exact (hw.inv (hs.beforeWrite answers draws ie de)).advance _

/-- Settles O4: the step's instruction runs as its form, and every operation of a form keeps the invariant. -/
theorem stepKeepsInvariant : Obligations.StepKeepsInvariant := by
  intro s t hs h
  obtain ⟨i, _, _, hi⟩ := step_next h
  exact Form.run_inv hs (exec_eq_run i s ▸ hi)

/-! ## What no instruction writes -/

theorem SameRest.trans {s t u : State} (h : SameRest s t) (h' : SameRest t u) : SameRest s u where
  params := h'.params.trans h.params
  mode := h'.mode.trans h.mode
  x := h'.x.trans h.x
  segBase := h'.segBase.trans h.segBase
  cr0 := h'.cr0.trans h.cr0
  cr4 := h'.cr4.trans h.cr4
  xcr0 := h'.xcr0.trans h.xcr0
  rflags := h'.rflags.trans h.rflags
  cpl := h'.cpl.trans h.cpl
  mem a := (h'.mem a).trans (h.mem a)
  memList := h'.memList.trans h.memList
  fetchFaults := h'.fetchFaults.trans h.fetchFaults
  text := h'.text.trans h.text

theorem State.beforeWrite_sameRest (s : State) (answers : List MemAnswer) (draws : Nat) (ie de : Bool) :
    SameRest s (s.beforeWrite answers draws ie de) := by constructor <;> intros <;> rfl

theorem State.setVreg_sameRest (s : State) (n : BitVec 5) (r : VecReg) : SameRest s (s.setVreg n r) := by
  constructor <;> intros <;> rfl

theorem State.setKreg_sameRest (s : State) (n : BitVec 3) (r : MaskReg) : SameRest s (s.setKreg n r) := by
  constructor <;> intros <;> rfl

theorem State.advance_sameRest (s : State) (len : Nat) : SameRest s (s.advance len) := by
  constructor <;> intros <;> rfl

/-- A form's register write leaves `SameRest`'s fields, `pc` and MXCSR alone. -/
theorem Form.WritesResult.sameRest {f : Form} {u w : State} (hw : Form.WritesResult f u w) :
    SameRest u w ∧ w.pc = u.pc ∧ w.mxcsr = u.mxcsr := by
  match f, hw with
  | .legacy o _, ⟨r, hw⟩ => subst hw; exact ⟨u.setVreg_sameRest _ _, rfl, rfl⟩
  | .vex o _, ⟨r, hw⟩ => subst hw; exact ⟨u.setVreg_sameRest _ _, rfl, rfl⟩
  | .evex o _, ⟨r, hw⟩ => subst hw; exact ⟨u.setKreg_sameRest _ _, rfl, rfl⟩

theorem Form.WritesResult.legacy_regs {o : LegacyOps} {imm : BitVec 8} {u w : State}
    (hw : Form.WritesResult (.legacy o imm) u w) :
    (∀ n, w.kreg n = u.kreg n) ∧ ∀ n, n ≠ destVec (rexBits o.rex) o.t → w.vreg n = u.vreg n := by
  obtain ⟨r, rfl⟩ := hw
  exact ⟨u.setVreg_kreg _ _, fun n hn => u.setVreg_vreg_ne _ hn⟩

theorem Form.WritesResult.vex_regs {o : VexOps} {imm : BitVec 8} {u w : State}
    (hw : Form.WritesResult (.vex o imm) u w) :
    (∀ n, w.kreg n = u.kreg n) ∧ ∀ n, n ≠ destVec (vexBits o.vex) o.t → w.vreg n = u.vreg n := by
  obtain ⟨r, rfl⟩ := hw
  exact ⟨u.setVreg_kreg _ _, fun n hn => u.setVreg_vreg_ne _ hn⟩

theorem Form.WritesResult.evex_regs {o : EvexOps} {imm : BitVec 8} {u w : State}
    (hw : Form.WritesResult (.evex o imm) u w) :
    (∀ n, w.vreg n = u.vreg n) ∧ ∀ n, n ≠ o.t.reg → w.kreg n = u.kreg n := by
  obtain ⟨r, rfl⟩ := hw
  exact ⟨u.setKreg_vreg _ _, fun n hn => u.setKreg_kreg_ne _ hn⟩

/-- Settles O38: the frames of the oracle and the flags, of the one register write, and of moving `pc`, in a chain. -/
theorem everyInstructionFrame : Obligations.EveryInstructionFrame := by
  intro i s t h
  rw [exec_eq_run] at h
  obtain ⟨answers, draws, ie, de, w, hw, rfl⟩ := Form.run_next h
  obtain ⟨hrest, hpc, hmx : w.mxcsr = withFlags s.mxcsr ie de⟩ := hw.sameRest
  have hsame : SameRest s (w.advance (Form.length i.form)) :=
    ((s.beforeWrite_sameRest answers draws ie de).trans hrest).trans (w.advance_sameRest _)
  refine ⟨hsame, ?_, ?_, ?_, ?_, fun o imm hf => ?_, fun o imm hf => ?_, fun o imm hf => ?_⟩
  · intro n h0 h1
    simp [hmx, withFlags_getLsbD, h0, h1]
  · intro h0
    simp [hmx, withFlags_getLsbD, h0]
  · intro h1
    simp [hmx, withFlags_getLsbD, h1]
  · rw [State.advance_pc, hrest.mode, hpc]; rfl
  · exact (hf ▸ hw).legacy_regs
  · exact (hf ▸ hw).vex_regs
  · exact (hf ▸ hw).evex_regs

/-! ## Register numbers (30_encoding.md R79, R91) -/

theorem ext4_toNat (hi : Bool) (n : BitVec 3) : (ext4 hi n).toNat = 8 * hi.toNat + n.toNat := by
  revert hi n; decide

theorem ext5_toNat (hi lo : Bool) (n : BitVec 3) : (ext5 hi lo n).toNat = 16 * hi.toNat + 8 * lo.toNat + n.toNat := by
  revert hi lo n; decide

theorem evexSrc1_toNat (e : Evex) : (evexSrc1 e).toNat = 16 * e.vHi.toNat + e.vvvv.toNat := by
  have h : ∀ (hi : Bool) (v : BitVec 4), (BitVec.ofBool hi ++ v).toNat = 16 * hi.toNat + v.toNat := by decide
  exact h e.vHi e.vvvv

theorem setWidth5_toNat (n : BitVec 4) : (n.setWidth 5).toNat = n.toNat := by
  rw [BitVec.toNat_setWidth]; omega

/-- A 4-bit register field without its high bit names a register below 8. -/
theorem toNat_lt_eight_of_high_clear {v : BitVec 4} (h : v.getLsbD 3 = false) : v.toNat < 8 := by
  revert v; decide

theorem destVec_lt_sixteen (e : ExtBits) (t : ModRM) : (destVec e t).toNat < 16 := by
  rw [destVec, setWidth5_toNat]; exact (ext4 e.r t.reg).isLt

theorem src2Vec_lt_sixteen (e : ExtBits) (n : BitVec 3) : (src2Vec e n).toNat < 16 := by
  rw [src2Vec, setWidth5_toNat]; exact (ext4 e.b n).isLt

theorem vexSrc1_lt_sixteen (o : VexOps) : (vexSrc1 o).toNat < 16 := by
  rw [vexSrc1, setWidth5_toNat]; exact (vexVvvv o.vex).isLt

theorem destVec_lt_eight {e : ExtBits} (h : e.r = false) (t : ModRM) : (destVec e t).toNat < 8 := by
  rw [destVec, setWidth5_toNat, ext4_toNat, h]; simpa using t.reg.isLt

theorem src2Vec_lt_eight {e : ExtBits} (h : e.b = false) (n : BitVec 3) : (src2Vec e n).toNat < 8 := by
  rw [src2Vec, setWidth5_toNat, ext4_toNat, h]; simpa using n.isLt

/-- The low-register rule of Mode32 clears the high bit of every VEX register field (R78). -/
theorem VexPrefix.lowOnly_fields {v : VexPrefix} (h : v.lowOnly = true) :
    (vexBits v).r = false ∧ (vexBits v).b = false ∧ (vexVvvv v).getLsbD 3 = false := by
  cases v with
  | two q => simpa [VexPrefix.lowOnly, vexBits, vexVvvv] using h
  | three q =>
    simp only [VexPrefix.lowOnly, Bool.and_eq_true, Bool.not_eq_true'] at h
    obtain ⟨⟨⟨hr, -⟩, hb⟩, hv⟩ := h
    exact ⟨hr, hb, hv⟩

theorem vexSrc1_lt_eight {o : VexOps} (h : (vexVvvv o.vex).getLsbD 3 = false) : (vexSrc1 o).toNat < 8 := by
  rw [vexSrc1, setWidth5_toNat]; exact toNat_lt_eight_of_high_clear h

/-- The low-register rule of Mode32 in the EVEX form (R92). -/
theorem Evex.lowOnly_lt_eight {e : Evex} (h : e.lowOnly = true) :
    (evexSrc1 e).toNat < 8 ∧ ∀ n, (evexSrc2 e n).toNat < 8 := by
  simp only [Evex.lowOnly, Bool.and_eq_true, Bool.not_eq_true'] at h
  obtain ⟨⟨⟨hx, hb⟩, hhi⟩, hv⟩ := h
  refine ⟨?_, fun n => ?_⟩
  · rw [evexSrc1_toNat, hhi]; simpa using toNat_lt_eight_of_high_clear hv
  · rw [evexSrc2, ext5_toNat, hx, hb]; simpa using n.isLt

/-! ## The count of vector registers (00_scope.md R5) -/

theorem Params.eight_le_nvec (p : Params) (m : Mode) : 8 ≤ p.nvec m := by
  cases m
  · exact Nat.le_refl 8
  · exact Nat.le_refl 8
  · simp only [Params.nvec]; split <;> decide

theorem Params.sixteen_le_nvec_mode64 (p : Params) : 16 ≤ p.nvec .mode64 := by
  simp only [Params.nvec]; split <;> decide

/-- An enabled EVEX form has AVX512F, so Mode64 has 32 registers. -/
theorem State.nvec_of_enabled_evex {s : State} (h : s.enabled .evex = true) (hm : s.mode = .mode64) :
    s.params.nvec s.mode = 32 := by
  simp only [State.enabled, Bool.and_eq_true] at h
  obtain ⟨⟨⟨⟨-, hf⟩, -⟩, -⟩, -⟩ := h
  simp [hm, Params.nvec, hf]

theorem Form.wellFormed_legacy_mode {m : Mode} {o : LegacyOps} {imm : BitVec 8}
    (h : (Form.legacy o imm).wellFormed m = true) : m = .mode64 ∨ o.rex = none := by
  simp only [Form.wellFormed, Bool.and_eq_true, Bool.or_eq_true, Option.isNone_iff_eq_none, beq_iff_eq] at h
  obtain ⟨⟨-, hmode⟩, -⟩ := h
  exact hmode.symm

theorem Form.wellFormed_vex_mode {m : Mode} {o : VexOps} {imm : BitVec 8}
    (h : (Form.vex o imm).wellFormed m = true) : m = .mode64 ∨ o.vex.lowOnly = true := by
  simp only [Form.wellFormed, Bool.and_eq_true, Bool.or_eq_true, beq_iff_eq] at h
  obtain ⟨⟨-, hmode⟩, -⟩ := h
  exact hmode.symm

theorem Form.wellFormed_evex_mode {m : Mode} {o : EvexOps} {imm : BitVec 8}
    (h : (Form.evex o imm).wellFormed m = true) : m = .mode64 ∨ o.evex.lowOnly = true := by
  simp only [Form.wellFormed, Bool.and_eq_true, Bool.or_eq_true, beq_iff_eq] at h
  obtain ⟨⟨-, hmode⟩, -⟩ := h
  exact hmode.symm

/-- Settles O17: Mode64 has a register for every number a form can write; elsewhere the fields stay below 8. -/
theorem namedVectorRegistersExist : Obligations.NamedVectorRegistersExist := by
  intro s
  have h8 : 8 ≤ s.params.nvec s.mode := Params.eight_le_nvec s.params s.mode
  have h16 : s.mode = .mode64 → 16 ≤ s.params.nvec s.mode := fun h => h ▸ Params.sixteen_le_nvec_mode64 s.params
  refine ⟨fun o imm h => ?_, fun o imm h => ?_, fun o imm h he => ?_⟩
  · rcases Form.wellFormed_legacy_mode h with hm | hrex
    · exact ⟨(destVec_lt_sixteen _ _).trans_le (h16 hm), fun n _ => (src2Vec_lt_sixteen _ n).trans_le (h16 hm)⟩
    · rw [hrex]
      exact ⟨(destVec_lt_eight rfl _).trans_le h8, fun n _ => (src2Vec_lt_eight rfl n).trans_le h8⟩
  · rcases Form.wellFormed_vex_mode h with hm | hlow
    · exact ⟨(destVec_lt_sixteen _ _).trans_le (h16 hm), (vexSrc1_lt_sixteen o).trans_le (h16 hm),
        fun n _ => (src2Vec_lt_sixteen _ n).trans_le (h16 hm)⟩
    · obtain ⟨hr, hb, hv⟩ := VexPrefix.lowOnly_fields hlow
      exact ⟨(destVec_lt_eight hr _).trans_le h8, (vexSrc1_lt_eight hv).trans_le h8,
        fun n _ => (src2Vec_lt_eight hb n).trans_le h8⟩
  · rcases Form.wellFormed_evex_mode h with hm | hlow
    · rw [State.nvec_of_enabled_evex he hm]
      exact ⟨(evexSrc1 o.evex).isLt, fun n _ => (evexSrc2 o.evex n).isLt⟩
    · obtain ⟨h1, h2⟩ := Evex.lowOnly_lt_eight hlow
      exact ⟨h1.trans_le h8, fun n _ => (h2 n).trans_le h8⟩

/-! ## A mask register that the write mask does not depend on -/

/-- Two writes of mask registers: the later of one register stays, those of two registers change places. -/
theorem State.setKreg_setKreg (s : State) (a d : BitVec 3) (m r : MaskReg) :
    (s.setKreg a m).setKreg d r = if d = a then s.setKreg d r else (s.setKreg d r).setKreg a m := by
  split
  · next h => subst h; simp [State.setKreg]
  · next h =>
    have hne : a.toNat ≠ d.toNat := fun e => h (BitVec.eq_of_toNat_eq e.symm)
    simp [State.setKreg, Vector.set_comm m r hne]

theorem State.setKreg_drawn (s : State) (a : BitVec 3) (m : MaskReg) : (s.setKreg a m).drawn = s.drawn.setKreg a m := by
  unfold State.drawn; rw [State.setKreg_params]; split <;> rfl

theorem State.setKreg_afterRead (s : State) (a : BitVec 3) (m : MaskReg) (rm : RegMem) :
    (s.setKreg a m).afterRead rm = (s.afterRead rm).setKreg a m := by
  unfold State.afterRead; split <;> rfl

@[simp] theorem State.setKreg_enabled (s : State) (a : BitVec 3) (m : MaskReg) (f : FormKind) :
    (s.setKreg a m).enabled f = s.enabled f := by cases f <;> rfl

@[simp] theorem readMem_setKreg (s : State) (a : BitVec 3) (m : MaskReg) (f : FormKind) (p : Prefixes) (e : ExtBits)
    (len : Nat) (mf : MemForm) : readMem (s.setKreg a m) f p e len mf = readMem s f p e len mf := by
  cases mf <;> rfl

theorem evexB_setKreg (s : State) (a : BitVec 3) (m : MaskReg) (o : EvexOps) (len : Nat) :
    evexB (s.setKreg a m) o len = evexB s o len := by
  unfold evexB; split <;> simp

/-- The EVEX form's write over another mask register's value. -/
theorem evexWritten_setKreg (s : State) (a : BitVec 3) (m : MaskReg) (o : EvexOps) (len : Nat) (r : MaskReg) :
    evexWritten (s.setKreg a m) o len r =
      if o.t.reg = a then evexWritten s o len r else (evexWritten s o len r).setKreg a m := by
  unfold evexWritten
  rw [State.setKreg_setKreg]
  split <;> rfl

theorem evexCompare_setKreg {s t : State} {o : EvexOps} {imm : BitVec 8} {len : Nat} {b : Word}
    (a : BitVec 3) (m : MaskReg) (h : evexCompare s o imm len b = .next t) :
    evexCompare (s.setKreg a m) o imm len b = .next (if o.t.reg = a then t else t.setKreg a m) := by
  unfold evexCompare at h ⊢
  have hos : (s.setKreg a m).osxmmexcpt = s.osxmmexcpt := rfl
  rw [State.setKreg_vreg, State.setKreg_mxcsr, hos]
  split at h
  · next r mx _ =>
    cases h
    rw [evexDone, State.setKreg_afterRead]
    exact congrArg _ (evexWritten_setKreg ((s.afterRead o.t.rm).setMxcsr mx) a m o len (boolMask r))
  · cases h

theorem evexMaskedOff_setKreg {s t : State} {o : EvexOps} {len : Nat} (a : BitVec 3) (m : MaskReg)
    (h : evexMaskedOff s o len = .next t) :
    evexMaskedOff (s.setKreg a m) o len = .next (if o.t.reg = a then t else t.setKreg a m) := by
  have htaken : maskedLoadTaken (s.setKreg a m) = maskedLoadTaken s := rfl
  unfold evexMaskedOff at h ⊢
  rw [htaken, State.setKreg_drawn]
  split at h
  · cases h
    exact congrArg _ (evexWritten_setKreg s a m o len 0)
  · next mf _ =>
    rw [readMem_setKreg]
    split at h
    · next ht =>
      rw [if_pos ht]
      split at h
      · cases h
      · cases h
        exact congrArg _ (evexWritten_setKreg s.drawn.answered a m o len 0)
    · next ht =>
      rw [if_neg ht]
      cases h
      exact congrArg _ (evexWritten_setKreg s.drawn a m o len 0)

/-- An EVEX form sees no mask register but through its write-mask bit: another value with the same bit stays where it
is, unless the destination covers it. -/
theorem runEvex_setKreg {s t : State} {o : EvexOps} {imm : BitVec 8} (a : BitVec 3) (m : MaskReg)
    (hbit : evexMaskBit (s.setKreg a m) o = evexMaskBit s o) (h : runEvex o imm s = .next t) :
    runEvex o imm (s.setKreg a m) = .next (if o.t.reg = a then t else t.setKreg a m) := by
  obtain ⟨⟨hen, hok, himm, hts⟩, hbody⟩ := State.checked_next_iff.mp h
  refine State.checked_next_iff.mpr ⟨⟨(s.setKreg_enabled a m _).trans hen, hok, himm, hts⟩, ?_⟩
  rw [hbit, evexB_setKreg]
  split at hbody
  · next hb =>
    rw [if_pos hb]
    split at hbody
    · cases hbody
    · exact evexCompare_setKreg a m hbody
  · next hb =>
    rw [if_neg hb]
    exact evexMaskedOff_setKreg a m hbody

/-- Without a write mask the bit is 1 whatever the mask registers hold (R24). -/
theorem evexMaskBit_of_no_mask {o : EvexOps} (h : o.evex.aaa = 0#3) (s : State) : evexMaskBit s o = true :=
  if_pos h

/-- Settles O60: with `aaa = 0` the write-mask bit is 1 in both states. -/
theorem maskRegisterZeroIsNoWriteMask : Obligations.MaskRegisterZeroIsNoWriteMask := by
  intro i o imm s t m hform haaa h
  rw [exec_evex hform] at h ⊢
  have hbit : evexMaskBit (s.setKreg 0#3 m) o = evexMaskBit s o := by
    rw [evexMaskBit_of_no_mask haaa, evexMaskBit_of_no_mask haaa]
  exact runEvex_setKreg 0#3 m hbit h

/-! ## Reset (10_state.md R34) -/

theorem State.reset_vreg (n : BitVec 5) : State.reset.vreg n = Vector.replicate 8 0#64 := by
  simp [State.vreg, State.reset]

theorem State.reset_kreg (n : BitVec 3) : State.reset.kreg n = 0 := by
  simp [State.kreg, State.reset]

/-- Settles O1: the fields and control bits of the reset state. -/
theorem resetHoldsTheSpecValues : Obligations.ResetHoldsTheSpecValues :=
  ⟨rfl, rfl, State.reset_vreg, State.reset_kreg, by decide, by decide, rfl, rfl⟩

/-- CR4 is 0 after reset, so OSFXSR and OSXSAVE are clear in whatever mode (R243). -/
theorem State.reset_not_enabled (m : Mode) (f : FormKind) : State.enabled { State.reset with mode := m } f = false := by
  have hfx : State.osfxsr { State.reset with mode := m } = false := by simp [State.osfxsr, State.reset]
  have hxs : State.osxsave { State.reset with mode := m } = false := by simp [State.osxsave, State.reset]
  cases f
  · simp [State.enabled, hfx]
  · simp [State.enabled, hxs]
  · simp [State.enabled, hxs]

theorem State.checked_of_not_enabled {s : State} {f : FormKind} (h : s.enabled f = false) (ok : Bool) (imm : BitVec 8)
    (body : Result) : s.checked f ok imm body = raise .ud s := by
  simp [State.checked, h]

/-- Where no form is enabled, every instruction is #UD. -/
theorem exec_of_not_enabled {s : State} (h : ∀ f, s.enabled f = false) (i : Instr) : exec i s = raise .ud s := by
  rw [exec_eq_run]
  match i.form with
  | .legacy o imm => exact State.checked_of_not_enabled (h .legacy) _ _ _
  | .vex o imm => exact State.checked_of_not_enabled (h .vex) _ _ _
  | .evex o imm => exact State.checked_of_not_enabled (h .evex) _ _ _

/-- Settles O2: CR4 enables no form after reset. -/
theorem resetEnablesNoForm : Obligations.ResetEnablesNoForm := fun i m =>
  exec_of_not_enabled (State.reset_not_enabled m) i

theorem State.reset_inv : State.reset.Inv where
  mem := State.reset_mem_wf
  params := rfl
  vec n j _ := by simp [State.reset_vreg]
  mask n := by rw [State.reset_kreg]; exact Nat.two_pow_pos _
  pc := by decide
  mxcsr := by decide

/-- The launch of a program at an address that fits the mode keeps the invariant (70_reset_and_hazards.md R247). -/
theorem State.Inv.withProgram {s : State} (h : s.Inv) {base : BitVec 64} (hb : Mode.truncPc s.mode base = base)
    (bs : List Byte) : (s.withProgram base bs).Inv :=
  { h with mem := s.withProgram_mem_wf base bs h.mem, pc := hb }

/-- Settles O3: a launch writes `pc`, the program text and memory, which stays canonical. -/
theorem resetMeetsInvariant : Obligations.ResetMeetsInvariant :=
  ⟨State.reset_inv, fun _ _ bs hs hb => hs.withProgram hb bs⟩

end Sys2Proof.Machine
end

section
/-! SUPPORT. The statements about memory of 20_memory.md: what is the same along a whole run, and the byte order of a
memory operand. -/

namespace Sys2Proof.Machine

/-! ## The flags accumulate (40_predicates.md R138) -/

/-- MXCSR goes from `old` to `new` by setting IE and DE only: every other bit stays, and neither flag is cleared. -/
structure FlagsAccumulate (old new : BitVec 32) : Prop where
  other : ∀ k, k ≠ 0 → k ≠ 1 → new.getLsbD k = old.getLsbD k
  ie : old.getLsbD 0 = true → new.getLsbD 0 = true
  de : old.getLsbD 1 = true → new.getLsbD 1 = true

theorem FlagsAccumulate.refl (m : BitVec 32) : FlagsAccumulate m m := ⟨fun _ _ _ => rfl, id, id⟩

theorem FlagsAccumulate.trans {a b c : BitVec 32} (h : FlagsAccumulate a b) (h' : FlagsAccumulate b c) :
    FlagsAccumulate a c where
  other k h0 h1 := (h'.other k h0 h1).trans (h.other k h0 h1)
  ie := h'.ie ∘ h.ie
  de := h'.de ∘ h.de

/-! ## Runs -/

/-- A reflexive and transitive relation that every step keeps relates the ends of every run. -/
theorem Runs.rel {R : State → State → Prop} (refl : ∀ s, R s s) (trans : ∀ {s u t}, R s u → R u t → R s t)
    (of_step : ∀ {s t}, step s = .next t → R s t) {n : Nat} {s t : State} (h : Runs n s t) : R s t := by
  induction n generalizing s with
  | zero => exact h ▸ refl s
  | succ n ih =>
    obtain ⟨u, hu, hrun⟩ := h
    exact trans (of_step hu) (ih hrun)

theorem SameRest.refl (s : State) : SameRest s s := by constructor <;> intros <;> rfl

/-- A step is one instruction, so it has the frame of every instruction. -/
theorem step_frame {s t : State} (h : step s = .next t) : SameRest s t ∧ FlagsAccumulate s.mxcsr t.mxcsr := by
  obtain ⟨i, _, _, hi⟩ := step_next h
  obtain ⟨hrest, hother, hie, hde, _⟩ := everyInstructionFrame i s t hi
  exact ⟨hrest, hother, hie, hde⟩

theorem Runs.frame {n : Nat} {s t : State} (h : Runs n s t) : SameRest s t ∧ FlagsAccumulate s.mxcsr t.mxcsr :=
  h.rel (R := fun s t => SameRest s t ∧ FlagsAccumulate s.mxcsr t.mxcsr)
    (fun s => ⟨.refl s, .refl _⟩) (fun h h' => ⟨h.1.trans h'.1, h.2.trans h'.2⟩) step_frame

/-! ## What `Fetch` reads (20_memory.md R57, R62) -/

/-- Two states with the same `SameRest` fields may be put at one `pc`. -/
theorem SameRest.withPc {s t : State} (h : SameRest s t) (a : BitVec 64) :
    SameRest { s with pc := a } { t with pc := a } := { h with }

theorem SameRest.segmentBase {s t : State} (h : SameRest s t) (g : Seg) : t.segmentBase g = s.segmentBase g := by
  cases g <;> simp only [State.segmentBase, h.mode, h.segBase]

theorem SameRest.linear {s t : State} (h : SameRest s t) (g : Seg) (off : BitVec 64) (i : Nat) :
    t.linear g off i = s.linear g off i := by
  rw [State.linear, State.linear, h.segmentBase, h.mode]

theorem SameRest.pastText {s t : State} (h : SameRest s t) (hpc : t.pc = s.pc) (i : Nat) :
    t.pastText i = s.pastText i := by
  rw [State.pastText, State.pastText, h.text, hpc]

/-- Fetch depends on `pc`, the program text, CS, the fetch faults and memory only. -/
theorem SameRest.fetchFrom {s t : State} (h : SameRest s t) (hpc : t.pc = s.pc) (n i : Nat) :
    t.fetchFrom n i = s.fetchFrom n i := by
  induction n generalizing i with
  | zero => rfl
  | succ n ih =>
    simp only [State.fetchFrom, h.pastText hpc, h.linear, h.fetchFaults, h.memList, hpc, ih]

/-- Settles O40: the frame of a step, along the run; fetch reads what the frame keeps. -/
theorem runsChangeNoMemoryOrText : Obligations.RunsChangeNoMemoryOrText := by
  intro n s t h
  obtain ⟨hrest, hflags⟩ := h.frame
  exact ⟨hrest, hflags.other, hflags.ie, hflags.de, fun a => (hrest.withPc a).fetchFrom rfl _ _⟩

/-! ## The byte order of a memory operand (20_memory.md R53) -/

/-- Eight bytes put together, the first one lowest, give each byte back at its place. -/
theorem State.read64_extractLsb' (s : State) (g : Seg) (ea : BitVec 64) {i : Nat} (hi : i < 8) :
    (s.read64 g ea).extractLsb' (8 * i) 8 = s.dataByte g ea i := by
  unfold State.read64
  generalize s.dataByte g ea = b
  match i, hi with
  | 0, _ | 1, _ | 2, _ | 3, _ | 4, _ | 5, _ | 6, _ | 7, _ =>
    -- The laws of `++` see the bytes only where the width 64 stands as their sum.
    change BitVec.extractLsb' (n := 8 + 8 + 8 + 8 + 8 + 8 + 8 + 8) _ _ _ = _
    simp (disch := omega) only [BitVec.extractLsb'_append_eq_of_le, BitVec.extractLsb'_append_eq_of_add_le]
    exact BitVec.extractLsb'_eq_self

/-- The sign is the top bit of the byte at the highest address. -/
theorem State.fpSign_read64 (s : State) (g : Seg) (ea : BitVec 64) :
    fpSign (s.read64 g ea) = (s.dataByte g ea 7).getLsbD 7 := by
  rw [← s.read64_extractLsb' g ea (i := 7) (by decide), BitVec.getLsbD_extractLsb']
  rfl

theorem Mode.linearSize_eq (m : Mode) : Mode.linearSize m = if m = .mode64 then 2 ^ 64 else 2 ^ 32 := by
  cases m <;> rfl

/-- Settles O53: each byte at its place, the sign from the last one, and the linear address by its definition. -/
theorem memoryOperandIsLittleEndian : Obligations.MemoryOperandIsLittleEndian := by
  intro s g ea
  refine ⟨fun i hi => s.read64_extractLsb' g ea hi, s.fpSign_read64 g ea, fun i => ?_⟩
  rw [State.dataByte, State.linear, Mode.linearSize_eq]

end Sys2Proof.Machine
end

section
/-! SUPPORT. The operand bytes of 30_encoding.md R80 to R87: the decoder's readers and the encoder are inverse. -/

namespace Sys2Proof

/-! ## Displacements (R83) -/

theorem bytes16_append (b1 b0 : Byte) : bytes16 (b1 ++ b0) = [b0, b1] := by
  -- The laws of `++` see the bytes only where the width 16 stands as their sum.
  have h (n : Nat) : BitVec.extractLsb' (n := 8 + 8) n 8 (b1 ++ b0) = (b1 ++ b0 : BitVec 16).extractLsb' n 8 := rfl
  simp (disch := omega) only [bytes16, ← h, BitVec.extractLsb'_append_eq_of_le,
    BitVec.extractLsb'_append_eq_of_add_le, Nat.reduceSub, BitVec.extractLsb'_eq_self]

theorem bytes32_append (b3 b2 b1 b0 : Byte) : bytes32 (b3 ++ b2 ++ b1 ++ b0) = [b0, b1, b2, b3] := by
  have h (n : Nat) : BitVec.extractLsb' (n := 8 + 8 + 8 + 8) n 8 (b3 ++ b2 ++ b1 ++ b0) =
      (b3 ++ b2 ++ b1 ++ b0 : BitVec 32).extractLsb' n 8 := rfl
  simp (disch := omega) only [bytes32, ← h, BitVec.extractLsb'_append_eq_of_le,
    BitVec.extractLsb'_append_eq_of_add_le, Nat.reduceSub, BitVec.extractLsb'_eq_self]

theorem take16_some {bs rest : List Byte} {d : BitVec 16} (h : take16 bs = some (d, rest)) :
    bs = bytes16 d ++ rest := by
  match bs, h with
  | b0 :: b1 :: _, rfl => rw [bytes16_append]; rfl

theorem take32_some {bs rest : List Byte} {d : BitVec 32} (h : take32 bs = some (d, rest)) :
    bs = bytes32 d ++ rest := by
  match bs, h with
  | b0 :: b1 :: b2 :: b3 :: _, rfl => rw [bytes32_append]; rfl

theorem mod_eq_two {md : BitVec 2} (h0 : md ≠ 0#2) (h1 : md ≠ 1#2) (h3 : md ≠ 3#2) : md = 2#2 := by
  revert md; decide

theorem takeDisp_some {md : BitVec 2} (h3 : md ≠ 3#2) {bs rest : List Byte} {d : Disp}
    (h : takeDisp md bs = some (d, rest)) : d.md = md ∧ bs = d.bytes ++ rest := by
  unfold takeDisp at h
  split at h
  · next h0 => cases h; exact ⟨h0.symm, rfl⟩
  · next h0 =>
    split at h
    · next h1 =>
      match bs, h with
      | _ :: _, rfl => exact ⟨h1.symm, rfl⟩
    · next h1 =>
      obtain ⟨_, h', heq⟩ := Option.map_eq_some_iff.mp h
      cases heq
      exact ⟨(mod_eq_two h0 h1 h3).symm, take32_some h'⟩

theorem takeDisp16_some {md : BitVec 2} (h3 : md ≠ 3#2) {bs rest : List Byte} {d : Disp16}
    (h : takeDisp16 md bs = some (d, rest)) : d.md = md ∧ bs = d.bytes ++ rest := by
  unfold takeDisp16 at h
  split at h
  · next h0 => cases h; exact ⟨h0.symm, rfl⟩
  · next h0 =>
    split at h
    · next h1 =>
      match bs, h with
      | _ :: _, rfl => exact ⟨h1.symm, rfl⟩
    · next h1 =>
      obtain ⟨_, h', heq⟩ := Option.map_eq_some_iff.mp h
      cases heq
      exact ⟨(mod_eq_two h0 h1 h3).symm, take16_some h'⟩

/-! ## The memory operand (R82, R85, R87) -/

/-- The memory operand has an encoding of its own in the address size, with these ModRM fields (R82, R85, R87). -/
structure MemForm.Encodes (f : MemForm) (a16 : Bool) (md : BitVec 2) (rm : BitVec 3) : Prop where
  wf : f.wellFormed = true
  size : f.is16 = a16
  fields : f.modRm = (md, rm)

theorem MemForm.based_wellFormed {rm : BitVec 3} {d : Disp} :
    (MemForm.based rm d).wellFormed = true ↔ rm ≠ 4#3 ∧ ¬(d.md = 0#2 ∧ rm = 5#3) := by
  simp [MemForm.wellFormed, d.md_eq_zero, imp_iff_not_or]

theorem MemForm.sib_wellFormed {s : BitVec 2} {x b : BitVec 3} {d : Disp} :
    (MemForm.sib s x b d).wellFormed = true ↔ ¬(d.md = 0#2 ∧ b = 5#3) := by
  simp [MemForm.wellFormed, d.md_eq_zero, imp_iff_not_or]

theorem MemForm.based16_wellFormed {rm : BitVec 3} {d : Disp16} :
    (MemForm.based16 rm d).wellFormed = true ↔ ¬(d.md = 0#2 ∧ rm = 6#3) := by
  simp [MemForm.wellFormed, d.md_eq_zero, imp_iff_not_or]

theorem sib_fields_join (s : Byte) :
    (s.extractLsb' 6 2 ++ s.extractLsb' 3 3 ++ s.extractLsb' 0 3 : Byte) = s := by revert s; decide

theorem takeSib_some {md : BitVec 2} (h3 : md ≠ 3#2) {bs rest : List Byte} {f : MemForm}
    (h : takeSib md bs = some (f, rest)) : f.Encodes false md 4#3 ∧ bs = f.bytes ++ rest := by
  match bs with
  | s :: bs =>
    rw [takeSib] at h
    split at h
    · next hs =>
      obtain ⟨_, h', heq⟩ := Option.map_eq_some_iff.mp h
      cases heq
      have hjoin : (s.extractLsb' 6 2 ++ s.extractLsb' 3 3 ++ 5#3 : Byte) = s := hs.2 ▸ sib_fields_join s
      exact ⟨⟨rfl, rfl, by rw [hs.1]; rfl⟩, by rw [MemForm.bytes, hjoin, take32_some h']; rfl⟩
    · next hs =>
      obtain ⟨⟨d, _⟩, h', heq⟩ := Option.map_eq_some_iff.mp h
      cases heq
      obtain ⟨hd, rfl⟩ := takeDisp_some h3 h'
      exact ⟨⟨MemForm.sib_wellFormed.mpr (hd ▸ hs), rfl, by rw [← hd]; rfl⟩,
        by rw [MemForm.bytes, sib_fields_join]; rfl⟩

theorem takeMem_some {md : BitVec 2} {rm : BitVec 3} (h3 : md ≠ 3#2) {bs rest : List Byte} {f : MemForm}
    (h : takeMem md rm bs = some (f, rest)) : f.Encodes false md rm ∧ bs = f.bytes ++ rest := by
  unfold takeMem at h
  split at h
  · next h4 => exact h4 ▸ takeSib_some h3 h
  · next h4 =>
    split at h
    · next h5 =>
      obtain ⟨_, h', heq⟩ := Option.map_eq_some_iff.mp h
      cases heq
      exact ⟨⟨rfl, rfl, by rw [h5.1, h5.2]; rfl⟩, take32_some h'⟩
    · next h5 =>
      obtain ⟨⟨d, _⟩, h', heq⟩ := Option.map_eq_some_iff.mp h
      cases heq
      obtain ⟨hd, rfl⟩ := takeDisp_some h3 h'
      exact ⟨⟨MemForm.based_wellFormed.mpr ⟨h4, hd ▸ h5⟩, rfl, by rw [← hd]; rfl⟩, rfl⟩

theorem takeMem16_some {md : BitVec 2} {rm : BitVec 3} (h3 : md ≠ 3#2) {bs rest : List Byte} {f : MemForm}
    (h : takeMem16 md rm bs = some (f, rest)) : f.Encodes true md rm ∧ bs = f.bytes ++ rest := by
  unfold takeMem16 at h
  split at h
  · next h6 =>
    obtain ⟨_, h', heq⟩ := Option.map_eq_some_iff.mp h
    cases heq
    exact ⟨⟨rfl, rfl, by rw [h6.1, h6.2]; rfl⟩, take16_some h'⟩
  · next h6 =>
    obtain ⟨⟨d, _⟩, h', heq⟩ := Option.map_eq_some_iff.mp h
    cases heq
    obtain ⟨hd, rfl⟩ := takeDisp16_some h3 h'
    exact ⟨⟨MemForm.based16_wellFormed.mpr (hd ▸ h6), rfl, by rw [← hd]; rfl⟩, rfl⟩

theorem takeMem_bytes {md : BitVec 2} {rm : BitVec 3} {f : MemForm} (h : f.Encodes false md rm) (rest : List Byte) :
    takeMem md rm (f.bytes ++ rest) = some (f, rest) := by
  obtain ⟨hwf, hsize, hfields⟩ := h
  obtain ⟨rfl, rfl⟩ := Prod.mk.inj hfields
  cases f with
  | direct d => simp [takeMem, MemForm.bytes, take32_bytes32]
  | based rm d =>
    obtain ⟨h4, h5⟩ := MemForm.based_wellFormed.mp hwf
    simp [takeMem, MemForm.bytes, h4, h5, takeDisp_bytes]
  | sib s x b d =>
    have h5 := MemForm.sib_wellFormed.mp hwf
    obtain ⟨hs, hx, hb⟩ := modRm_fields s x b
    simp [takeMem, takeSib, MemForm.bytes, hs, hx, hb, h5, takeDisp_bytes]
  | sibNoBase s x d =>
    obtain ⟨hs, hx, hb⟩ := modRm_fields s x 5#3
    simp [takeMem, takeSib, MemForm.bytes, hs, hx, hb, take32_bytes32]
  | direct16 d => cases hsize
  | based16 rm d => cases hsize

theorem takeMem16_bytes {md : BitVec 2} {rm : BitVec 3} {f : MemForm} (h : f.Encodes true md rm) (rest : List Byte) :
    takeMem16 md rm (f.bytes ++ rest) = some (f, rest) := by
  obtain ⟨hwf, hsize, hfields⟩ := h
  obtain ⟨rfl, rfl⟩ := Prod.mk.inj hfields
  cases f with
  | direct16 d => simp [takeMem16, MemForm.bytes, take16_bytes16]
  | based16 rm d =>
    have h6 := MemForm.based16_wellFormed.mp hwf
    simp [takeMem16, MemForm.bytes, h6, takeDisp16_bytes]
  | direct _ | based _ _ | sib _ _ _ _ | sibNoBase _ _ _ => cases hsize

/-! ## ModRM and `imm8` -/

theorem MemForm.modRm_mod_ne (f : MemForm) : f.modRm.1 ≠ 3#2 := by
  cases f with
  | based _ d | sib _ _ _ d => exact d.md_ne
  | based16 _ d => exact d.md_ne
  | direct _ | sibNoBase _ _ _ | direct16 _ => exact (by decide : 0#2 ≠ 3#2)

/-- The ModRM reader inverts the encoder, and reads nothing else (R80). -/
theorem takeModRM_eq_some {a16 : Bool} {bs rest : List Byte} {t : ModRM} :
    takeModRM a16 bs = some (t, rest) ↔ t.rm.wellFormed a16 = true ∧ bs = t.bytes ++ rest := by
  constructor
  · intro h
    match bs with
    | b :: bs =>
      have hjoin := sib_fields_join b
      rw [takeModRM] at h
      split at h
      · next h3 => cases h; exact ⟨rfl, by rw [h3] at hjoin; simp [ModRM.bytes, hjoin]⟩
      · next h3 =>
        obtain ⟨⟨f, rest⟩, h', heq⟩ := Option.map_eq_some_iff.mp h
        cases heq
        have hf : f.Encodes a16 (b.extractLsb' 6 2) (b.extractLsb' 0 3) ∧ bs = f.bytes ++ rest := by
          cases a16
          · exact takeMem_some h3 h'
          · exact takeMem16_some h3 h'
        obtain ⟨⟨hwf, hsize, hfields⟩, rfl⟩ := hf
        exact ⟨by simp [RegMem.wellFormed, hwf, hsize], by simp [ModRM.bytes, hfields, hjoin]⟩
  · rintro ⟨hwf, rfl⟩
    obtain ⟨reg, rm⟩ := t
    cases rm with
    | reg n =>
      obtain ⟨h6, h3, h0⟩ := modRm_fields 3#2 reg n
      simp [ModRM.bytes, takeModRM, h6, h3, h0]
    | mem f =>
      obtain ⟨hf, hsize⟩ : f.wellFormed = true ∧ f.is16 = a16 := by simpa [RegMem.wellFormed] using hwf
      have hmem : (if a16 then takeMem16 f.modRm.1 f.modRm.2 (f.bytes ++ rest)
          else takeMem f.modRm.1 f.modRm.2 (f.bytes ++ rest)) = some (f, rest) := by
        cases a16
        · exact takeMem_bytes ⟨hf, hsize, rfl⟩ rest
        · exact takeMem16_bytes ⟨hf, hsize, rfl⟩ rest
      obtain ⟨h6, h3, h0⟩ := modRm_fields f.modRm.1 reg f.modRm.2
      simp [ModRM.bytes, takeModRM, h6, h3, h0, f.modRm_mod_ne, hmem]

/-- After the opcode byte, the reader takes exactly the bytes that the encoder writes for an operand of the address size
and an `imm8` (R72, R93). -/
theorem takeTail_eq_some {a16 : Bool} {bs rest : List Byte} {t : ModRM} {imm : BitVec 8} :
    takeTail a16 bs = some (t, imm, rest) ↔ t.rm.wellFormed a16 = true ∧ bs = t.bytes ++ imm :: rest := by
  rw [← takeModRM_eq_some]
  unfold takeTail
  constructor
  · intro h
    split at h
    · next heq => cases h; exact heq
    · cases h
  · intro h
    rw [h]

end Sys2Proof
end

section
/-! SUPPORT. The prefix bytes of 30_encoding.md R73, and the decoder's equation for the bytes of each form. -/

namespace Sys2Proof

/-! ## Legacy prefix bytes (R73) -/

/-- The eleven legacy prefix bytes (R73). -/
def prefixBytes : List Byte :=
  [0xF2#8, 0xF3#8, 0x66#8, 0xF0#8, 0x67#8, 0x26#8, 0x2E#8, 0x36#8, 0x3E#8, 0x64#8, 0x65#8]

/-- What the decoder has read after these prefix bytes. -/
def PrefixScan.of (pre : List Byte) : PrefixScan where
  f2 := pre.count 0xF2#8
  f3 := pre.count 0xF3#8
  opsize := pre.count 0x66#8
  lock := pre.count 0xF0#8
  a67 := pre.count 0x67#8
  segs := pre.filterMap Seg.ofByte

theorem PrefixScan.add_of {b : Byte} (h : b ∈ prefixBytes) (pre : List Byte) :
    (PrefixScan.of pre).add b = some (.of (pre ++ [b])) := by
  simp only [prefixBytes, List.mem_cons, List.not_mem_nil, or_false] at h
  rcases h with rfl | rfl | rfl | rfl | rfl | rfl | rfl | rfl | rfl | rfl | rfl <;>
    simp [PrefixScan.add, PrefixScan.of, Seg.ofByte]

theorem PrefixScan.add_isSome_iff (p : PrefixScan) (b : Byte) : (p.add b).isSome = true ↔ b ∈ prefixBytes := by
  have h : (p.add b).isSome = (PrefixScan.empty.add b).isSome := by
    unfold PrefixScan.add
    cases Seg.ofByte b <;> split_ifs <;> rfl
  rw [h]; clear h; revert b; decide

theorem PrefixScan.add_of_not_mem {b : Byte} (h : b ∉ prefixBytes) (p : PrefixScan) : p.add b = none :=
  Option.not_isSome_iff_eq_none.mp ((p.add_isSome_iff b).not.mpr h)

theorem scanPrefixes_of {post : List Byte} (h : ∀ b ∈ post, b ∈ prefixBytes) (pre tail : List Byte) :
    scanPrefixes (.of pre) (post ++ tail) = scanPrefixes (.of (pre ++ post)) tail := by
  induction post generalizing pre with
  | nil => rw [List.append_nil]; rfl
  | cons b post ih =>
    obtain ⟨hb, hpost⟩ := List.forall_mem_cons.mp h
    rw [List.cons_append, scanPrefixes, PrefixScan.add_of hb]
    simpa using ih hpost (pre ++ [b])

/-- The prefix bytes that stand before another byte are read and counted (R93). -/
theorem decode_prefixes {pre : List Byte} (hpre : ∀ b ∈ pre, b ∈ prefixBytes) {b : Byte} (hb : b ∉ prefixBytes)
    (m : Mode) (rest : List Byte) :
    decode m (pre ++ b :: rest) = decodeAfterPrefixes m (.of pre) (b :: rest) := by
  have h : scanPrefixes .empty (pre ++ b :: rest) = (.of pre, b :: rest) := by
    rw [show PrefixScan.empty = .of [] from rfl, scanPrefixes_of hpre, List.nil_append, scanPrefixes,
      PrefixScan.add_of_not_mem hb]
  rw [decode, h]

/-- Prefix bytes alone are no whole instruction. -/
theorem decode_only_prefixes {pre : List Byte} (hpre : ∀ b ∈ pre, b ∈ prefixBytes) (m : Mode) :
    decode m pre = .reject .needMore := by
  have h : scanPrefixes .empty pre = (.of pre, []) := by
    have := scanPrefixes_of hpre [] []
    rwa [List.append_nil] at this
  rw [decode, h]; rfl

theorem PrefixScan.prefixes_of {pre : List Byte} {p : Prefixes} (ha : p.a67 = decide (0x67#8 ∈ pre))
    (hs : p.seg = (pre.filterMap Seg.ofByte).head?) : (PrefixScan.of pre).prefixes = p := by
  obtain ⟨seg, a67⟩ := p
  simp_all [PrefixScan.prefixes, PrefixScan.of, List.count_pos_iff]

theorem PrefixScan.optionalOk_of (pre : List Byte) :
    (PrefixScan.of pre).optionalOk = true ↔ pre.count 0x67#8 ≤ 1 ∧ (pre.filterMap Seg.ofByte).length ≤ 1 := by
  rw [PrefixScan.optionalOk, decide_eq_true_eq, and_comm]; rfl

theorem PrefixScan.legacyOk_of (pre : List Byte) :
    (PrefixScan.of pre).legacyOk = true ↔ pre.count 0xF2#8 = 1 ∧ 0xF3#8 ∉ pre ∧ 0x66#8 ∉ pre ∧ 0xF0#8 ∉ pre ∧
      pre.count 0x67#8 ≤ 1 ∧ (pre.filterMap Seg.ofByte).length ≤ 1 := by
  rw [PrefixScan.legacyOk, Bool.and_eq_true, optionalOk_of]
  simp [PrefixScan.of, List.count_eq_zero, and_assoc]

theorem PrefixScan.barsVex_of (pre : List Byte) :
    (PrefixScan.of pre).barsVex = true ↔ 0xF2#8 ∈ pre ∨ 0xF3#8 ∈ pre ∨ 0x66#8 ∈ pre ∨ 0xF0#8 ∈ pre := by
  simp [PrefixScan.barsVex, PrefixScan.of, List.count_pos_iff, or_assoc]

theorem Rex.byte_not_prefix (r : Rex) : r.byte ∉ prefixBytes := by
  obtain ⟨w, r, x, b⟩ := r; revert w r x b; decide

theorem Rex.byte_not_opcode (r : Rex) : isVexByte r.byte = false ∧ r.byte ≠ 0x0F#8 := by
  obtain ⟨w, r, x, b⟩ := r; revert w r x b; decide

theorem not_opcode_of_mem_prefixBytes {b : Byte} (h : b ∈ prefixBytes) : isVexByte b = false ∧ b ≠ 0x0F#8 := by
  revert b; decide

theorem not_prefix_of_isVexByte {b : Byte} (h : isVexByte b = true) : b ∉ prefixBytes := by revert b; decide

/-! ## The decoder on the bytes after the prefixes -/

theorem decodeAfterPrefixes_vex {b : Byte} (h : isVexByte b = true) (m : Mode) (p : PrefixScan) (rest : List Byte) :
    decodeAfterPrefixes m p (b :: rest) = decodeVexLike m p false b rest := if_pos h

/-- The byte after a REX byte decides (R73, R75). -/
theorem decodeAfterPrefixes_rex (p : PrefixScan) (r : Rex) (c : Byte) (rest : List Byte) :
    decodeAfterPrefixes .mode64 p (r.byte :: c :: rest) =
      if isVexByte c then decodeVexLike .mode64 p true c rest
      else if c = 0x0F#8 then decodeLegacy .mode64 p (some r) rest
      else if c ∈ prefixBytes ∨ isRexByte c = true then .reject .prefixCombination
      else .reject .notInScope := by
  obtain ⟨hv, ho⟩ := r.byte_not_opcode
  simp [decodeAfterPrefixes, hv, ho, r.isRexByte_byte, r.ofByte_byte, PrefixScan.add_isSome_iff]

theorem decodeLegacy_bytes {m : Mode} {p : PrefixScan} {t : ModRM}
    (h : t.rm.wellFormed (a16Of m p.prefixes.a67) = true) (rex : Option Rex) (imm : BitVec 8) (rest : List Byte) :
    decodeLegacy m p rex (0xC2#8 :: (t.bytes ++ imm :: rest)) =
      if p.f2 = 0 then .reject .notInScope
      else if m = .mode16 ∨ 0 < p.lock then .reject .undefinedOpcode
      else if p.legacyOk = false then .reject .prefixCombination
      else .instr (Form.legacy ⟨p.prefixes, rex, t⟩ imm).instr rest := by
  simp [decodeLegacy, takeTail_eq_some.mpr ⟨h, rfl⟩]

theorem decodeVex2_bytes {m : Mode} {p : PrefixScan} {t : ModRM}
    (h : t.rm.wellFormed (a16Of m p.prefixes.a67) = true) (rexBefore : Bool) (v1 op : Byte) (imm : BitVec 8)
    (rest : List Byte) :
    decodeVex2 m p rexBefore (v1 :: op :: (t.bytes ++ imm :: rest)) =
      if (m ≠ .mode64 ∧ v1.extractLsb' 6 2 ≠ 3#2) ∨ v1.extractLsb' 0 2 ≠ 3#2 ∨ op ≠ 0xC2#8 then .reject .notInScope
      else vexChecks m p rexBefore false false ((Vex2.ofByte v1).vvvv.getLsbD 3)
        (Form.vex ⟨p.prefixes, .two (Vex2.ofByte v1), t⟩ imm).instr rest := by
  simp only [decodeVex2, takeTail_eq_some.mpr ⟨h, rfl⟩]
  simp only [ite_or]

theorem decodeVex3_bytes {m : Mode} {p : PrefixScan} {t : ModRM}
    (h : t.rm.wellFormed (a16Of m p.prefixes.a67) = true) (rexBefore : Bool) (v1 v2 op : Byte) (imm : BitVec 8)
    (rest : List Byte) :
    decodeVex3 m p rexBefore (v1 :: v2 :: op :: (t.bytes ++ imm :: rest)) =
      if (m ≠ .mode64 ∧ v1.extractLsb' 6 2 ≠ 3#2) ∨ v1.extractLsb' 0 5 ≠ 1#5 ∨ v2.extractLsb' 0 2 ≠ 3#2 ∨
          op ≠ 0xC2#8 then .reject .notInScope
      else vexChecks m p rexBefore false false ((Vex3.ofBytes v1 v2).b || (Vex3.ofBytes v1 v2).vvvv.getLsbD 3)
        (Form.vex ⟨p.prefixes, .three (Vex3.ofBytes v1 v2), t⟩ imm).instr rest := by
  simp only [decodeVex3, takeTail_eq_some.mpr ⟨h, rfl⟩]
  simp only [ite_or]

theorem decodeEvex_bytes {m : Mode} {p : PrefixScan} {t : ModRM}
    (h : t.rm.wellFormed (a16Of m p.prefixes.a67) = true) (rexBefore : Bool) (p0 p1 p2 op : Byte) (imm : BitVec 8)
    (rest : List Byte) :
    decodeEvex m p rexBefore (p0 :: p1 :: p2 :: op :: (t.bytes ++ imm :: rest)) =
      if (m ≠ .mode64 ∧ p0.extractLsb' 6 2 ≠ 3#2) ∨ p0.extractLsb' 0 2 ≠ 1#2 ∨ p1.extractLsb' 0 2 ≠ 3#2 ∨
          op ≠ 0xC2#8 then .reject .notInScope
      else vexChecks m p rexBefore (evexFixedBad p0 p1) (p2.getLsbD 7)
        ((Evex.ofBytes p0 p1 p2).b || (Evex.ofBytes p0 p1 p2).vHi || (Evex.ofBytes p0 p1 p2).vvvv.getLsbD 3)
        (Form.evex ⟨p.prefixes, Evex.ofBytes p0 p1 p2, t⟩ imm).instr rest := by
  simp only [decodeEvex, takeTail_eq_some.mpr ⟨h, rfl⟩]
  simp only [ite_or]

end Sys2Proof
end

section
/-! SUPPORT. The statements about the decoder on chosen bytes: every value of the VEX and EVEX prefix bytes, every
sequence of prefix bytes before a form, and the round trip (30_encoding.md R72 to R104). -/

namespace Sys2Proof

open Machine

/-! ## The checks of a VEX or EVEX form -/

/-- Without prefix bytes the checks of a VEX or EVEX form are those of its own fields. -/
theorem vexChecks_empty (m : Mode) (fixedBad z high : Bool) (i : Instr) (rest : List Byte) :
    vexChecks m .empty false fixedBad z high i rest =
      if m = .mode16 ∨ fixedBad = true then .reject .undefinedOpcode
      else if z = true then .reject .zeroingMarker
      else if m = .mode32 ∧ high = true then .reject .highRegister
      else .instr i rest := by
  have hbars : PrefixScan.empty.barsVex = false := rfl
  have hok : PrefixScan.empty.optionalOk = true := rfl
  simp [vexChecks, hbars, hok]

/-- The decoder's answer for a VEX or EVEX form with an encoding in the mode: only the bytes before it can stop it
(R73). -/
def vexAnswer (p : PrefixScan) (rexBefore : Bool) (f : Form) (rest : List Byte) : Decoded :=
  if p.barsVex = true ∨ rexBefore = true then .reject .undefinedOpcode
  else if p.optionalOk = false then .reject .prefixCombination
  else .instr f.instr rest

theorem vexChecks_wellFormed {m : Mode} {high : Bool} (hm : m ≠ .mode16) (hhigh : m ≠ .mode64 → high = false)
    (p : PrefixScan) (rexBefore : Bool) (f : Form) (rest : List Byte) :
    vexChecks m p rexBefore false false high f.instr rest = vexAnswer p rexBefore f rest := by
  have hhigh : ¬(m = .mode32 ∧ high = true) := by
    rintro ⟨rfl, h⟩
    rw [hhigh nofun] at h
    cases h
  simp [vexChecks, vexAnswer, hm, hhigh]

/-! ## Every value of the VEX and EVEX prefix bytes -/

/-- A two-byte VEX prefix in Mode32 cannot name a high register: with a high bit of `V1` clear the bytes are LDS
(R78). -/
theorem Vex2.ofByte_lowOnly {v1 : Byte} (h : v1.extractLsb' 6 2 = 3#2) :
    (VexPrefix.two (.ofByte v1)).lowOnly = true := by
  revert v1; decide

/-- Settles O12: the decoder's equations for `C5` and `C4`, and its checks without prefix bytes. -/
theorem vexFieldRule : Obligations.VexFieldRule := by
  refine ⟨fun m v1 op t imm rest h => ?_, fun m v1 v2 op t imm rest h => ?_⟩
  · have hdec : decode m (0xC5#8 :: v1 :: op :: (t.bytes ++ imm :: rest)) =
        decodeVex2 m .empty false (v1 :: op :: (t.bytes ++ imm :: rest)) := rfl
    rw [hdec, decodeVex2_bytes h, vexChecks_empty]
    refine ite_congr rfl (fun _ => rfl) fun hscope => ?_
    have hlow : ¬(m = .mode32 ∧ (Vex2.ofByte v1).vvvv.getLsbD 3 = true) := by
      rintro ⟨rfl, hhigh⟩
      have h11 : v1.extractLsb' 6 2 = 3#2 := by simpa using (not_or.mp hscope).1
      have hlow := Vex2.ofByte_lowOnly h11
      rw [VexPrefix.lowOnly, hhigh, Bool.not_true, Bool.and_false] at hlow
      cases hlow
    simp only [hlow, Bool.false_eq_true, or_false, if_false]
    rfl
  · have hdec : decode m (0xC4#8 :: v1 :: v2 :: op :: (t.bytes ++ imm :: rest)) =
        decodeVex3 m .empty false (v1 :: v2 :: op :: (t.bytes ++ imm :: rest)) := rfl
    have hhigh : ((Vex3.ofBytes v1 v2).b || (Vex3.ofBytes v1 v2).vvvv.getLsbD 3) = true ↔
        v1.getLsbD 5 = false ∨ v2.getLsbD 6 = false := by simp [Vex3.ofBytes]
    rw [hdec, decodeVex3_bytes h, vexChecks_empty]
    simp only [hhigh, Bool.false_eq_true, or_false, if_false]
    rfl

/-- Settles O11: the decoder's equation for `62`, and its checks without prefix bytes. -/
theorem evexFieldRule : Obligations.EvexFieldRule := by
  intro m p0 p1 p2 op t imm rest h
  have hdec : decode m (0x62#8 :: p0 :: p1 :: p2 :: op :: (t.bytes ++ imm :: rest)) =
      decodeEvex m .empty false (p0 :: p1 :: p2 :: op :: (t.bytes ++ imm :: rest)) := rfl
  have hfixed : evexFixedBad p0 p1 = true ↔ p0.extractLsb' 2 2 ≠ 0#2 ∨ p1.getLsbD 2 = false ∨ p1.getLsbD 7 = false ∨
      p0.getLsbD 7 = false ∨ p0.getLsbD 4 = false := by simp [evexFixedBad, or_assoc]
  have hhigh : ((Evex.ofBytes p0 p1 p2).b || (Evex.ofBytes p0 p1 p2).vHi ||
      (Evex.ofBytes p0 p1 p2).vvvv.getLsbD 3) = true ↔
      p0.getLsbD 5 = false ∨ p2.getLsbD 3 = false ∨ p1.getLsbD 6 = false := by simp [Evex.ofBytes, or_assoc]
  rw [hdec, decodeEvex_bytes h, vexChecks_empty]
  simp only [hfixed, hhigh]
  rfl

/-! ## Prefix bytes before an encoded form (R73) -/

theorem Form.wellFormed_mode {m : Mode} {f : Form} (h : f.wellFormed m = true) : m ≠ .mode16 := by
  rintro rfl
  cases f <;> simp [Form.wellFormed] at h

theorem Vex2.byte_high (v : Vex2) :
    v.byte.extractLsb' 6 2 = BitVec.ofBool (!v.r) ++ BitVec.ofBool (!v.vvvv.getLsbD 3) := by
  obtain ⟨r, vvvv, l⟩ := v; revert r vvvv l; decide

theorem Vex3.byte1_high (v : Vex3) : v.byte1.extractLsb' 6 2 = BitVec.ofBool (!v.r) ++ BitVec.ofBool (!v.x) := by
  have h : ∀ r x b : Bool,
      (BitVec.ofBool (!r) ++ BitVec.ofBool (!x) ++ BitVec.ofBool (!b) ++ 1#5 : Byte).extractLsb' 6 2 =
        BitVec.ofBool (!r) ++ BitVec.ofBool (!x) := by decide
  exact h v.r v.x v.b

theorem Evex.byte0_high (e : Evex) : e.byte0.extractLsb' 6 2 = 1#1 ++ BitVec.ofBool (!e.x) := by
  have h : ∀ x b : Bool,
      (1#1 ++ BitVec.ofBool (!x) ++ BitVec.ofBool (!b) ++ 1#1 ++ 0#2 ++ 1#2 : Byte).extractLsb' 6 2 =
        1#1 ++ BitVec.ofBool (!x) := by decide
  exact h e.x e.b

/-- An encoded EVEX prefix has its fixed fields (R90, R91). -/
theorem Evex.fixed_ok (e : Evex) : evexFixedBad e.byte0 e.byte1 = false := by
  obtain ⟨-, -, -, h32, h7, h4⟩ := Evex.byte0_fields e.x e.b
  obtain ⟨-, -, h2, hw⟩ := Evex.byte1_fields e.vvvv
  rw [evexFixedBad, Evex.byte0, Evex.byte1, h32, h7, h4, h2, hw]; rfl

theorem decodeVex2_encoded {m : Mode} {p : PrefixScan} {v : Vex2} {t : ModRM} {imm : BitVec 8}
    (h : (Form.vex ⟨p.prefixes, .two v, t⟩ imm).wellFormed m = true) (rexBefore : Bool) (rest : List Byte) :
    decodeVex2 m p rexBefore (v.byte :: 0xC2#8 :: (t.bytes ++ imm :: rest)) =
      vexAnswer p rexBefore (.vex ⟨p.prefixes, .two v, t⟩ imm) rest := by
  have ht : t.rm.wellFormed (a16Of m p.prefixes.a67) = true := (Bool.and_eq_true_iff.mp h).2
  have hlow : m ≠ .mode64 → v.r = false ∧ v.vvvv.getLsbD 3 = false := fun hm => by
    simpa [VexPrefix.lowOnly] using (Form.wellFormed_vex_mode h).resolve_left hm
  have hscope : ¬((m ≠ .mode64 ∧ v.byte.extractLsb' 6 2 ≠ 3#2) ∨ v.byte.extractLsb' 0 2 ≠ 3#2 ∨ 0xC2#8 ≠ 0xC2#8) := by
    rintro (⟨hm, hne⟩ | hne | hne)
    · rw [v.byte_high, (hlow hm).1, (hlow hm).2] at hne; exact hne rfl
    · exact hne v.byte_pp
    · exact hne rfl
  rw [decodeVex2_bytes ht, if_neg hscope, v.ofByte_byte]
  exact vexChecks_wellFormed (Form.wellFormed_mode h) (fun hm => (hlow hm).2) p rexBefore _ rest

theorem decodeVex3_encoded {m : Mode} {p : PrefixScan} {v : Vex3} {t : ModRM} {imm : BitVec 8}
    (h : (Form.vex ⟨p.prefixes, .three v, t⟩ imm).wellFormed m = true) (rexBefore : Bool) (rest : List Byte) :
    decodeVex3 m p rexBefore (v.byte1 :: v.byte2 :: 0xC2#8 :: (t.bytes ++ imm :: rest)) =
      vexAnswer p rexBefore (.vex ⟨p.prefixes, .three v, t⟩ imm) rest := by
  have ht : t.rm.wellFormed (a16Of m p.prefixes.a67) = true := (Bool.and_eq_true_iff.mp h).2
  have hlow : m ≠ .mode64 → ((v.r = false ∧ v.x = false) ∧ v.b = false) ∧ v.vvvv.getLsbD 3 = false := fun hm => by
    simpa [VexPrefix.lowOnly] using (Form.wellFormed_vex_mode h).resolve_left hm
  obtain ⟨-, -, -, hmm⟩ := Vex3.byte1_fields v.r v.x v.b
  obtain ⟨-, -, -, hpp⟩ := Vex3.byte2_fields v.w v.vvvv v.l
  have hscope : ¬((m ≠ .mode64 ∧ v.byte1.extractLsb' 6 2 ≠ 3#2) ∨ v.byte1.extractLsb' 0 5 ≠ 1#5 ∨
      v.byte2.extractLsb' 0 2 ≠ 3#2 ∨ 0xC2#8 ≠ 0xC2#8) := by
    rintro (⟨hm, hne⟩ | hne | hne | hne)
    · obtain ⟨⟨⟨hr, hx⟩, -⟩, -⟩ := hlow hm
      rw [v.byte1_high, hr, hx] at hne; exact hne rfl
    · exact hne hmm
    · exact hne hpp
    · exact hne rfl
  rw [decodeVex3_bytes ht, if_neg hscope, v.ofBytes_bytes]
  exact vexChecks_wellFormed (Form.wellFormed_mode h) (fun hm => by simp only [hlow hm, Bool.or_self]) p rexBefore _ _

theorem decodeEvex_encoded {m : Mode} {p : PrefixScan} {e : Evex} {t : ModRM} {imm : BitVec 8}
    (h : (Form.evex ⟨p.prefixes, e, t⟩ imm).wellFormed m = true) (rexBefore : Bool) (rest : List Byte) :
    decodeEvex m p rexBefore (e.byte0 :: e.byte1 :: e.byte2 :: 0xC2#8 :: (t.bytes ++ imm :: rest)) =
      vexAnswer p rexBefore (.evex ⟨p.prefixes, e, t⟩ imm) rest := by
  have ht : t.rm.wellFormed (a16Of m p.prefixes.a67) = true := (Bool.and_eq_true_iff.mp h).2
  have hlow : m ≠ .mode64 → ((e.x = false ∧ e.b = false) ∧ e.vHi = false) ∧ e.vvvv.getLsbD 3 = false := fun hm => by
    simpa [Evex.lowOnly] using (Form.wellFormed_evex_mode h).resolve_left hm
  obtain ⟨-, -, hmm, -⟩ := Evex.byte0_fields e.x e.b
  obtain ⟨-, hpp, -⟩ := Evex.byte1_fields e.vvvv
  obtain ⟨-, -, -, -, hz⟩ := Evex.byte2_fields e.ll e.bc e.vHi e.aaa
  have hscope : ¬((m ≠ .mode64 ∧ e.byte0.extractLsb' 6 2 ≠ 3#2) ∨ e.byte0.extractLsb' 0 2 ≠ 1#2 ∨
      e.byte1.extractLsb' 0 2 ≠ 3#2 ∨ 0xC2#8 ≠ 0xC2#8) := by
    rintro (⟨hm, hne⟩ | hne | hne | hne)
    · obtain ⟨⟨⟨hx, -⟩, -⟩, -⟩ := hlow hm
      rw [e.byte0_high, hx] at hne; exact hne rfl
    · exact hne hmm
    · exact hne hpp
    · exact hne rfl
  rw [decodeEvex_bytes ht, if_neg hscope, e.ofBytes_bytes, e.fixed_ok, show e.byte2.getLsbD 7 = false from hz]
  exact vexChecks_wellFormed (Form.wellFormed_mode h) (fun hm => by simp only [hlow hm, Bool.or_self]) p rexBefore _ _

/-- The encoded body of a VEX or EVEX form begins with the byte that tells which, and the decoder of that byte answers
the form or what the bytes before it say (R73). -/
theorem decodeVexLike_body {m : Mode} {f : Form} {p : PrefixScan} (hmand : f.mandatory = [])
    (hwf : f.wellFormed m = true) (hp : p.prefixes = f.pfx) (rest : List Byte) :
    ∃ b tail, f.body ++ rest = b :: tail ∧ isVexByte b = true ∧
      ∀ rexBefore, decodeVexLike m p rexBefore b tail = vexAnswer p rexBefore f rest := by
  match f with
  | .legacy o imm => cases hmand
  | .vex ⟨pfx, .two v, t⟩ imm =>
    obtain rfl : p.prefixes = pfx := hp
    exact ⟨0xC5#8, v.byte :: 0xC2#8 :: (t.bytes ++ imm :: rest), by simp [Form.body, VexPrefix.bytes], rfl,
      fun rb => decodeVex2_encoded hwf rb rest⟩
  | .vex ⟨pfx, .three v, t⟩ imm =>
    obtain rfl : p.prefixes = pfx := hp
    exact ⟨0xC4#8, v.byte1 :: v.byte2 :: 0xC2#8 :: (t.bytes ++ imm :: rest),
      by simp [Form.body, VexPrefix.bytes], rfl, fun rb => decodeVex3_encoded hwf rb rest⟩
  | .evex ⟨pfx, e, t⟩ imm =>
    obtain rfl : p.prefixes = pfx := hp
    exact ⟨0x62#8, e.byte0 :: e.byte1 :: e.byte2 :: 0xC2#8 :: (t.bytes ++ imm :: rest),
      by simp [Form.body, Evex.bytes], rfl, fun rb => decodeEvex_encoded hwf rb rest⟩

/-- Settles O10: the prefix bytes are counted, then the VEX or EVEX form's decoder answers by the counts. -/
theorem vexPrefixRule : Obligations.VexPrefixRule := by
  intro m f pre rest hmand hwf hpre ha hs
  obtain ⟨b, tail, hbody, hb, hdec⟩ := decodeVexLike_body hmand hwf (PrefixScan.prefixes_of ha hs) rest
  refine ⟨?_, fun hm r => ?_⟩
  · rw [hbody, decode_prefixes hpre (not_prefix_of_isVexByte hb), decodeAfterPrefixes_vex hb, hdec, vexAnswer]
    simp only [PrefixScan.barsVex_of, ← PrefixScan.optionalOk_of, Bool.false_eq_true, or_false]
    cases (PrefixScan.of pre).optionalOk <;> rfl
  · subst hm
    rw [hbody, decode_prefixes hpre r.byte_not_prefix, decodeAfterPrefixes_rex, if_pos hb, hdec]
    exact if_pos (.inr rfl)

/-- The decoder on the encoded body of a legacy form, after any prefix bytes (R73, R74). -/
theorem decodeAfterPrefixes_legacy {m : Mode} {o : LegacyOps} {imm : BitVec 8} {p : PrefixScan}
    (hwf : (Form.legacy o imm).wellFormed m = true) (hp : p.prefixes = o.pfx) (rest : List Byte) :
    decodeAfterPrefixes m p ((Form.legacy o imm).body ++ rest) =
      if p.f2 = 0 then .reject .notInScope
      else if 0 < p.lock then .reject .undefinedOpcode
      else if p.legacyOk = false then .reject .prefixCombination
      else .instr (Form.legacy o imm).instr rest := by
  have hm := Form.wellFormed_mode hwf
  obtain ⟨pfx, rex, t⟩ := o
  obtain rfl : p.prefixes = pfx := hp
  have ht : t.rm.wellFormed (a16Of m p.prefixes.a67) = true := (Bool.and_eq_true_iff.mp hwf).2
  have hdec : decodeAfterPrefixes m p ((Form.legacy ⟨p.prefixes, rex, t⟩ imm).body ++ rest) =
      decodeLegacy m p rex (0xC2#8 :: (t.bytes ++ imm :: rest)) := by
    cases rex with
    | none => simp [Form.body, rexBytes, decodeAfterPrefixes, isVexByte]
    | some r =>
      cases (Form.wellFormed_legacy_mode hwf).resolve_right nofun
      simp [Form.body, rexBytes, decodeAfterPrefixes_rex, isVexByte]
  rw [hdec, decodeLegacy_bytes ht]
  simp only [hm, false_or]

/-- An encoded form's first byte is no prefix byte. -/
theorem Form.body_eq_cons (f : Form) : ∃ b tail, f.body = b :: tail ∧ b ∉ prefixBytes := by
  match f with
  | .legacy ⟨_, none, _⟩ _ => exact ⟨0x0F#8, _, rfl, by decide⟩
  | .legacy ⟨_, some r, _⟩ _ => exact ⟨r.byte, _, rfl, r.byte_not_prefix⟩
  | .vex ⟨_, .two _, _⟩ _ => exact ⟨0xC5#8, _, rfl, by decide⟩
  | .vex ⟨_, .three _, _⟩ _ => exact ⟨0xC4#8, _, rfl, by decide⟩
  | .evex _ _ => exact ⟨0x62#8, _, rfl, by decide⟩

/-- The prefix bytes before an encoded form are read and counted. -/
theorem decode_prefixes_body {pre : List Byte} (hpre : ∀ b ∈ pre, b ∈ prefixBytes) (m : Mode) (f : Form)
    (rest : List Byte) :
    decode m (pre ++ (f.body ++ rest)) = decodeAfterPrefixes m (.of pre) (f.body ++ rest) := by
  obtain ⟨b, tail, hbody, hb⟩ := f.body_eq_cons
  rw [hbody]
  exact decode_prefixes hpre hb m _

/-- Settles O9: the prefix bytes are counted, then the legacy form's decoder answers by the counts; after a REX byte,
no prefix byte and no other REX byte is `0F` or begins a VEX or EVEX form. -/
theorem legacyPrefixRule : Obligations.LegacyPrefixRule := by
  refine ⟨fun m o imm pre rest hwf hpre ha hs => ?_, fun pre rest r c hpre hc => ?_⟩
  · rw [decode_prefixes_body hpre, decodeAfterPrefixes_legacy hwf (PrefixScan.prefixes_of ha hs)]
    have hf2 : (PrefixScan.of pre).f2 = 0 ↔ 0xF2#8 ∉ pre := List.count_eq_zero
    have hlock : 0 < (PrefixScan.of pre).lock ↔ 0xF0#8 ∈ pre := List.count_pos_iff
    simp only [hf2, hlock]
    refine ite_congr rfl (fun _ => rfl) fun _ => ite_congr rfl (fun _ => rfl) fun hl => ?_
    have hok : (PrefixScan.of pre).legacyOk = true ↔ pre.count 0xF2#8 = 1 ∧ 0xF3#8 ∉ pre ∧ 0x66#8 ∉ pre ∧
        pre.count 0x67#8 ≤ 1 ∧ (pre.filterMap Seg.ofByte).length ≤ 1 := by
      rw [PrefixScan.legacyOk_of]; simp only [hl, not_false_eq_true, true_and]
    simp only [← hok]
    cases (PrefixScan.of pre).legacyOk <;> rfl
  · have hother : isVexByte c = false ∧ c ≠ 0x0F#8 := by
      rcases hc with hc | ⟨r', rfl⟩
      · exact not_opcode_of_mem_prefixBytes hc
      · exact r'.byte_not_opcode
    have hrefused : c ∈ prefixBytes ∨ isRexByte c = true := by
      rcases hc with hc | ⟨r', rfl⟩
      · exact .inl hc
      · exact .inr r'.isRexByte_byte
    rw [decode_prefixes hpre r.byte_not_prefix, decodeAfterPrefixes_rex, hother.1, if_neg nofun, if_neg hother.2,
      if_pos hrefused]

/-! ## Decoding what the encoder writes (R72) -/

/-- Prefix bytes that say the optional prefixes and otherwise hold an `F2` `n` times: at most one segment override, at
most one `67`, and no `F3`, `66` or LOCK (R73). -/
structure Prefixes.WrittenAs (p : Prefixes) (n : Nat) (pre : List Byte) : Prop where
  isPrefix : ∀ b ∈ pre, b ∈ prefixBytes
  a67 : p.a67 = decide (0x67#8 ∈ pre)
  seg : p.seg = (pre.filterMap Seg.ofByte).head?
  optional : pre.count 0x67#8 ≤ 1 ∧ (pre.filterMap Seg.ofByte).length ≤ 1
  f2 : pre.count 0xF2#8 = n
  others : 0xF3#8 ∉ pre ∧ 0x66#8 ∉ pre ∧ 0xF0#8 ∉ pre

theorem Prefixes.bytes_writtenAs (p : Prefixes) : p.WrittenAs 0 p.bytes := by
  obtain ⟨seg, a67⟩ := p
  rcases seg with _ | (_ | _ | _ | _ | _ | _) <;> cases a67 <;> constructor <;> decide

/-- The encoder writes the mandatory `F2` after the optional prefixes. -/
theorem Prefixes.WrittenAs.append_f2 {p : Prefixes} {n : Nat} {pre : List Byte} (h : p.WrittenAs n pre) :
    p.WrittenAs (n + 1) (pre ++ [0xF2#8]) where
  isPrefix b hb := (List.mem_append.mp hb).elim (h.isPrefix b) fun hb => List.mem_singleton.mp hb ▸ by decide
  a67 := by simp [h.a67]
  seg := by simp [h.seg, Seg.ofByte]
  optional := by simpa [Seg.ofByte] using h.optional
  f2 := by simp [h.f2]
  others := by simpa using h.others

/-- Decoding what the encoder wrote of a form gives the form's encoding row and the bytes after it: the prefix rules at
the encoder's own prefix bytes. -/
theorem decode_form {m : Mode} {f : Form} (h : f.wellFormed m = true) (rest : List Byte) :
    decode m (f.bytes ++ rest) = .instr f.instr rest := by
  have hw := f.pfx.bytes_writtenAs
  match f with
  | .legacy o imm =>
    obtain ⟨hpre, ha, hs, hopt, hf2, hf3, h66, hlock⟩ := hw.append_f2
    obtain ⟨hlegacy, -⟩ := legacyPrefixRule
    have hmem : 0xF2#8 ∈ (Form.legacy o imm).pfx.bytes ++ [0xF2#8] := by simp
    have hrule := hlegacy m o imm _ rest h hpre ha hs
    rw [if_neg (not_not.mpr hmem), if_neg hlock, if_pos ⟨hf2, hf3, h66, hopt⟩] at hrule
    rw [← hrule]
    simp [Form.bytes, Form.mandatory, Form.pfx]
  | .vex _ _ | .evex _ _ =>
    obtain ⟨hpre, ha, hs, hopt, hf2, hf3, h66, hlock⟩ := hw
    obtain ⟨hrule, -⟩ := vexPrefixRule m _ _ rest rfl h hpre ha hs
    have hnone : ¬(0xF2#8 ∈ _ ∨ 0xF3#8 ∈ _ ∨ 0x66#8 ∈ _ ∨ 0xF0#8 ∈ _) :=
      not_or.mpr ⟨List.count_eq_zero.mp hf2, not_or.mpr ⟨hf3, not_or.mpr ⟨h66, hlock⟩⟩⟩
    rw [if_neg hnone, if_pos hopt] at hrule
    rw [← hrule]
    simp [Form.bytes, Form.mandatory, Form.pfx]

/-- Settles O5: an instruction's bytes are those of its form, which the decoder gives back; the five encodings are the
rows of their own forms. -/
theorem decodeEncodeRoundTrip : Obligations.DecodeEncodeRoundTrip :=
  ⟨fun _ _ rest h => decode_form h rest, fun _ _ _ => rfl, fun _ _ _ _ => rfl, fun _ _ _ _ => rfl,
    fun _ _ _ _ => rfl, fun _ _ _ _ => rfl⟩

end Sys2Proof
end

section
/-! SUPPORT. The statements about the decoder on any bytes: it reads no byte past the instruction, what it answers is
well-formed, and lengths (30_encoding.md R93, R95). -/

namespace Sys2Proof

/-! ## The decoder reads only the bytes it answers for (R93) -/

/-- An answer with more bytes left over. -/
def Decoded.append (d : Decoded) (more : List Byte) : Decoded :=
  match d with
  | .instr i rest => .instr i (rest ++ more)
  | .reject r => .reject r

/-- A reader that, unless it asks for more bytes, answers the same whatever follows: more bytes only come out as bytes
left over. -/
def ReadsPrefix (d : List Byte → Decoded) : Prop :=
  ∀ bs more, d bs = .reject .needMore ∨ d (bs ++ more) = (d bs).append more

theorem ReadsPrefix.reject (r : Reject) : ReadsPrefix fun _ => .reject r := fun _ _ => .inr rfl

theorem ReadsPrefix.cons {d : List Byte → Decoded} (hnil : d [] = .reject .needMore)
    (hcons : ∀ b, ReadsPrefix fun rest => d (b :: rest)) : ReadsPrefix d
  | [], _ => .inl hnil
  | b :: bs, more => hcons b bs more

theorem ReadsPrefix.ite {c : Prop} [Decidable c] {d e : List Byte → Decoded} (hd : ReadsPrefix d) (he : ReadsPrefix e) :
    ReadsPrefix fun bs => if c then d bs else e bs := by
  split
  · exact hd
  · exact he

theorem takeTail_append {a16 : Bool} {bs rest : List Byte} {t : ModRM} {imm : BitVec 8}
    (h : takeTail a16 bs = some (t, imm, rest)) (more : List Byte) :
    takeTail a16 (bs ++ more) = some (t, imm, rest ++ more) := by
  obtain ⟨ht, rfl⟩ := takeTail_eq_some.mp h
  exact takeTail_eq_some.mpr ⟨ht, by simp⟩

theorem ReadsPrefix.tail {a16 : Bool} {k : ModRM → BitVec 8 → List Byte → Decoded}
    (hk : ∀ t imm rest more, k t imm (rest ++ more) = (k t imm rest).append more) :
    ReadsPrefix fun bs => match takeTail a16 bs with
      | none => .reject .needMore
      | some (t, imm, rest) => k t imm rest := by
  intro bs more
  rcases h : takeTail a16 bs with _ | ⟨t, imm, rest⟩
  · exact .inl (by simp only [h])
  · exact .inr (by simp only [h, takeTail_append h, hk, Decoded.append])

theorem vexChecks_append (m : Mode) (p : PrefixScan) (rexBefore fixedBad z high : Bool) (i : Instr)
    (rest more : List Byte) :
    vexChecks m p rexBefore fixedBad z high i (rest ++ more) =
      (vexChecks m p rexBefore fixedBad z high i rest).append more := by
  unfold vexChecks
  split_ifs <;> rfl

theorem decodeLegacy_readsPrefix (m : Mode) (p : PrefixScan) (rex : Option Rex) :
    ReadsPrefix (decodeLegacy m p rex) :=
  .cons rfl fun _ => .ite (.reject _) (.tail fun _ _ _ _ => by split_ifs <;> rfl)

theorem decodeVex2_readsPrefix (m : Mode) (p : PrefixScan) (rexBefore : Bool) :
    ReadsPrefix (decodeVex2 m p rexBefore) :=
  .cons rfl fun _ => .ite (.reject _) (.cons rfl fun _ => .ite (.reject _) (.tail fun _ _ _ _ => vexChecks_append ..))

theorem decodeVex3_readsPrefix (m : Mode) (p : PrefixScan) (rexBefore : Bool) :
    ReadsPrefix (decodeVex3 m p rexBefore) :=
  .cons rfl fun _ => .ite (.reject _) (.cons rfl fun _ => .ite (.reject _)
    (.cons rfl fun _ => .ite (.reject _) (.tail fun _ _ _ _ => vexChecks_append ..)))

theorem decodeEvex_readsPrefix (m : Mode) (p : PrefixScan) (rexBefore : Bool) :
    ReadsPrefix (decodeEvex m p rexBefore) :=
  .cons rfl fun _ => .ite (.reject _) (.cons rfl fun _ => .ite (.reject _)
    (.cons rfl fun _ => .cons rfl fun _ => .ite (.reject _) (.tail fun _ _ _ _ => vexChecks_append ..)))

theorem decodeVexLike_readsPrefix (m : Mode) (p : PrefixScan) (rexBefore : Bool) (b : Byte) :
    ReadsPrefix (decodeVexLike m p rexBefore b) :=
  .ite (decodeVex2_readsPrefix _ _ _) (.ite (decodeVex3_readsPrefix _ _ _) (decodeEvex_readsPrefix _ _ _))

theorem decodeAfterPrefixes_readsPrefix (m : Mode) (p : PrefixScan) : ReadsPrefix (decodeAfterPrefixes m p) :=
  .cons rfl fun _ => .ite (decodeVexLike_readsPrefix _ _ _ _) (.ite (decodeLegacy_readsPrefix _ _ _)
    (.ite (.cons rfl fun _ => .ite (decodeVexLike_readsPrefix _ _ _ _) (.ite (decodeLegacy_readsPrefix _ _ _)
      (.ite (.reject _) (.reject _)))) (.reject _)))

theorem decode_readsPrefix (m : Mode) : ReadsPrefix (decode m) := by
  intro bs more
  unfold decode
  generalize PrefixScan.empty = p
  induction bs generalizing p with
  | nil => exact .inl rfl
  | cons b bs ih =>
    rw [List.cons_append, scanPrefixes, scanPrefixes]
    split
    · next p' _ => exact ih p'
    · exact decodeAfterPrefixes_readsPrefix m p (b :: bs) more

/-- Settles O7: the decoder is put together from readers that keep to the bytes they answer for. -/
theorem decodeReadsOnlyItsBytes : Obligations.DecodeReadsOnlyItsBytes := by
  refine ⟨fun m bs more i rest h => ?_, fun m bs more r h hr => ?_⟩
  · rcases decode_readsPrefix m bs more with hmore | happend
    · rw [h] at hmore; cases hmore
    · rw [happend, h]; rfl
  · rcases decode_readsPrefix m bs more with hmore | happend
    · rw [h] at hmore; cases hmore; exact absurd rfl hr
    · rw [happend, h]; rfl

/-! ## Lengths (R95) -/

/-- The encoder writes as many bytes as the length formula says. -/
theorem Form.bytes_length (f : Form) : f.bytes.length = f.length := by
  have hhead : f.bytes.length = f.pfx.count + f.mandatory.length + f.body.length := by
    simp [Form.bytes, Prefixes.bytes_length, Nat.add_assoc]
  rw [hhead]
  match f with
  | .legacy ⟨p, rex, t⟩ imm =>
    cases rex <;> simp [Form.mandatory, Form.pfx, Form.body, rexBytes, Form.length, ModRM.bytes_length] <;> omega
  | .vex ⟨p, v, t⟩ imm =>
    cases v <;>
      simp [Form.mandatory, Form.pfx, Form.body, VexPrefix.bytes, VexPrefix.size, Form.length, ModRM.bytes_length] <;>
      omega
  | .evex ⟨p, e, t⟩ imm =>
    simp [Form.mandatory, Form.pfx, Form.body, Evex.bytes, Form.length, ModRM.bytes_length]
    omega

theorem Prefixes.count_le (p : Prefixes) : p.count ≤ 2 := by
  unfold Prefixes.count; split <;> split <;> decide

theorem Disp.size_le (d : Disp) : d.size ≤ 4 := by cases d <;> simp [Disp.size]

theorem Disp16.size_le (d : Disp16) : d.size ≤ 2 := by cases d <;> simp [Disp16.size]

theorem RegMem.size_le (rm : RegMem) : rm.size ≤ 5 := by
  match rm with
  | .reg _ => exact Nat.zero_le _
  | .mem (.based _ d) => exact d.size_le.trans (by decide)
  | .mem (.sib _ _ _ d) => exact Nat.add_le_add_left d.size_le 1
  | .mem (.based16 _ d) => exact d.size_le.trans (by decide)
  | .mem (.direct _) | .mem (.sibNoBase _ _ _) | .mem (.direct16 _) => simp [RegMem.size, MemForm.size]

theorem Form.length_bounds (f : Form) : 5 ≤ f.length ∧ f.length ≤ 14 := by
  match f with
  | .legacy ⟨p, rex, t⟩ _ => 
    have := p.count_le
    have := t.rm.size_le
    simp only [Form.length]; split <;> omega
  | .vex ⟨p, v, t⟩ _ =>
    have := p.count_le
    have := t.rm.size_le
    cases v <;> simp only [Form.length, VexPrefix.size] <;> omega
  | .evex ⟨p, _, t⟩ _ =>
    have := p.count_le
    have := t.rm.size_le
    simp only [Form.length]; omega

/-- Settles O8: the parts of a form are bounded, and a register form of CMPSD and an EVEX form with SIB and two prefixes
meet the bounds. -/
theorem lengthBetweenFiveAndFourteen : Obligations.LengthBetweenFiveAndFourteen :=
  ⟨fun i => i.form.bytes_length, fun _ i _ => i.form.length_bounds,
    ⟨.mode64, .cmpsd ⟨none, false⟩ ⟨0#3, .reg 1#3⟩ 1#8, by decide⟩,
    ⟨.mode64, .vcmpsdEvex ⟨some .fs, true⟩ ⟨false, false, 0#4, 0#2, false, false, 0#3⟩
      ⟨0#3, .mem (.sib 0#2 0#3 0#3 (.d32 0#32))⟩ 0#8, by decide⟩⟩
end Sys2Proof
end

section
/-! SUPPORT. What the decoder answers, from its answer back to the bytes: an encoding row that the mode admits, of R95's
length (30_encoding.md R78, R92, R93, R95). -/

namespace Sys2Proof

/-! ## The prefix bytes read -/

/-- How many prefix bytes have been read. -/
def PrefixScan.total (p : PrefixScan) : Nat := p.f2 + p.f3 + p.opsize + p.lock + p.a67 + p.segs.length

theorem PrefixScan.add_total {p p' : PrefixScan} {b : Byte} (h : p.add b = some p') : p'.total = p.total + 1 := by
  -- Each of the six branches counts the byte in one field.
  unfold PrefixScan.add at h
  split_ifs at h
  on_goal 6 => split at h
  all_goals cases h
  all_goals simp only [PrefixScan.total, List.length_append, List.length_singleton]; omega

theorem scanPrefixes_total (p : PrefixScan) (bs : List Byte) :
    (scanPrefixes p bs).1.total + (scanPrefixes p bs).2.length = p.total + bs.length := by
  induction bs generalizing p with
  | nil => rfl
  | cons b bs ih =>
    rw [scanPrefixes]
    split
    · next p' h => rw [ih, PrefixScan.add_total h, List.length_cons]; omega
    · rfl

/-- At most one segment override and one `67` are the optional prefixes, each once (R73). -/
theorem PrefixScan.optional_count {p : PrefixScan} (h : p.optionalOk = true) :
    p.a67 + p.segs.length = p.prefixes.count := by
  obtain ⟨hs, ha⟩ : p.segs.length ≤ 1 ∧ p.a67 ≤ 1 := of_decide_eq_true h
  have hseg : p.segs.length = if p.segs.head?.isSome then 1 else 0 := by
    match p.segs, hs with
    | [], _ => rfl
    | [_], _ => rfl
  have ha67 : p.a67 = if decide (0 < p.a67) then 1 else 0 := by
    split_ifs with h <;> simp at h <;> omega
  rw [Prefixes.count, Nat.add_comm]
  exact congrArg₂ _ hseg ha67

theorem PrefixScan.total_of_legacyOk {p : PrefixScan} (h : p.legacyOk = true) : p.total = p.prefixes.count + 1 := by
  obtain ⟨hcounts, hopt⟩ := Bool.and_eq_true_iff.mp h
  have hcounts := of_decide_eq_true hcounts
  rw [← optional_count hopt, PrefixScan.total]; omega

theorem PrefixScan.total_of_not_barsVex {p : PrefixScan} (h : p.barsVex = false) (hopt : p.optionalOk = true) :
    p.total = p.prefixes.count := by
  have hcounts := of_decide_eq_false h
  rw [← optional_count hopt, PrefixScan.total]; omega

/-! ## What a decoder that answers an instruction answers -/

/-- A reader that, where it answers an instruction, answers one for which `P` holds, with the count of the bytes it was
given and the bytes it leaves over. -/
def Yields (P : Nat → Instr → List Byte → Prop) (d : List Byte → Decoded) : Prop :=
  ∀ bs i rest, d bs = .instr i rest → P bs.length i rest

section

variable {P : Nat → Instr → List Byte → Prop} {d e : List Byte → Decoded}

theorem Yields.reject (r : Reject) : Yields P fun _ => .reject r := fun _ _ _ h => by cases h

theorem Yields.cons (hnil : d [] = .reject .needMore)
    (hcons : ∀ b, Yields (fun n => P (n + 1)) fun rest => d (b :: rest)) : Yields P d
  | [], _, _, h => by rw [hnil] at h; cases h
  | b :: bs, i, rest, h => hcons b bs i rest h

theorem Yields.mono {Q : Nat → Instr → List Byte → Prop} (h : Yields P d)
    (hpq : ∀ n i rest, P n i rest → Q n i rest) : Yields Q d := fun bs i rest hd => hpq _ _ _ (h bs i rest hd)

theorem Yields.ite {c : Prop} [Decidable c] (hd : c → Yields P d) (he : ¬c → Yields P e) :
    Yields P fun bs => if c then d bs else e bs := by
  split
  · next h => exact hd h
  · next h => exact he h

theorem Yields.tail {a16 : Bool} {k : ModRM → BitVec 8 → List Byte → Decoded}
    (hk : ∀ (t : ModRM) (imm : BitVec 8) (rest' : List Byte) (i : Instr) (rest : List Byte),
      t.rm.wellFormed a16 = true → k t imm rest' = .instr i rest → P (t.rm.size + 2 + rest'.length) i rest) :
    Yields P fun bs => match takeTail a16 bs with
      | none => .reject .needMore
      | some (t, imm, rest) => k t imm rest := by
  intro bs i rest h
  dsimp only at h
  split at h
  · cases h
  · next t imm rest' heq =>
    obtain ⟨ht, rfl⟩ := takeTail_eq_some.mp heq
    have hlen : (t.bytes ++ imm :: rest').length = t.rm.size + 2 + rest'.length := by
      simp [ModRM.bytes_length]; omega
    exact hlen ▸ hk t imm rest' i rest ht h

end

/-- Of `n` bytes, the prefix bytes among them: an encoding row that the mode admits, and the bytes left over. -/
def Answers (m : Mode) (n : Nat) (i : Instr) (rest : List Byte) : Prop :=
  ∃ f : Form, i = f.instr ∧ f.wellFormed m = true ∧ n = f.length + rest.length

theorem Form.wellFormed_vex_of {m : Mode} {o : VexOps} {imm : BitVec 8} (hm : m ≠ .mode16)
    (hlow : m = .mode32 → o.vex.lowOnly = true) (ht : o.t.rm.wellFormed (a16Of m o.pfx.a67) = true) :
    (Form.vex o imm).wellFormed m = true := by
  cases m <;> simp_all [Form.wellFormed]

theorem Form.wellFormed_evex_of {m : Mode} {o : EvexOps} {imm : BitVec 8} (hm : m ≠ .mode16)
    (hlow : m = .mode32 → o.evex.lowOnly = true) (ht : o.t.rm.wellFormed (a16Of m o.pfx.a67) = true) :
    (Form.evex o imm).wellFormed m = true := by
  cases m <;> simp_all [Form.wellFormed]

/-- What has been checked of a VEX or EVEX form that is answered. -/
theorem vexChecks_instr {m : Mode} {p : PrefixScan} {rexBefore fixedBad z high : Bool} {i j : Instr}
    {rest rest' : List Byte} (h : vexChecks m p rexBefore fixedBad z high j rest' = .instr i rest) :
    m ≠ .mode16 ∧ rexBefore = false ∧ p.total = p.prefixes.count ∧ ¬(m = .mode32 ∧ high = true) ∧ j = i ∧
      rest' = rest := by
  unfold vexChecks at h
  split_ifs at h with hud hopt _ hhigh
  cases h
  obtain ⟨hm, hbars, hrex, -⟩ := by simpa only [not_or] using hud
  exact ⟨hm, by simpa using hrex, PrefixScan.total_of_not_barsVex (by simpa using hbars) (by simpa using hopt), hhigh,
    rfl, rfl⟩

theorem decodeLegacy_yields {m : Mode} {rex : Option Rex} (hrex : rex = none ∨ m = .mode64) (p : PrefixScan) :
    Yields (fun n => Answers m (p.total + (n + 1 + (rexBytes rex).length))) (decodeLegacy m p rex) :=
  .cons rfl fun _ => .ite (fun _ => .reject _) fun _ => .tail fun t imm rest' i rest ht h => by
    split_ifs at h with hud hok
    cases h
    have hm : m ≠ .mode16 := (not_or.mp hud).1
    have htotal := PrefixScan.total_of_legacyOk (by simpa using hok)
    refine ⟨_, rfl, ?_, ?_⟩
    · rcases hrex with rfl | rfl <;> simp [Form.wellFormed, hm, ht]
    · rw [htotal]
      cases rex <;> simp [Form.length, rexBytes] <;> omega

theorem high_bits_set {b : Byte} (h : b.extractLsb' 6 2 = 3#2) : b.getLsbD 7 = true ∧ b.getLsbD 6 = true := by
  revert b; decide

/-- Mode32's high bits 11b of `V1`, which stand inverted, and its register check leave no high register (R77, R78). -/
theorem Vex3.ofBytes_lowOnly {v1 v2 : Byte} (h : v1.extractLsb' 6 2 = 3#2)
    (hhigh : ((Vex3.ofBytes v1 v2).b || (Vex3.ofBytes v1 v2).vvvv.getLsbD 3) = false) :
    (VexPrefix.three (.ofBytes v1 v2)).lowOnly = true := by
  obtain ⟨h7, h6⟩ := high_bits_set h
  have hr : (Vex3.ofBytes v1 v2).r = false := congrArg (!·) h7
  have hx : (Vex3.ofBytes v1 v2).x = false := congrArg (!·) h6
  obtain ⟨hb, hv⟩ := Bool.or_eq_false_iff.mp hhigh
  rw [VexPrefix.lowOnly, hr, hx, hb, hv]; rfl

/-- The same of `P0` and the EVEX form's register check (R88, R92). -/
theorem Evex.ofBytes_lowOnly {p0 p1 p2 : Byte} (h : p0.extractLsb' 6 2 = 3#2)
    (hhigh : ((Evex.ofBytes p0 p1 p2).b || (Evex.ofBytes p0 p1 p2).vHi ||
      (Evex.ofBytes p0 p1 p2).vvvv.getLsbD 3) = false) : (Evex.ofBytes p0 p1 p2).lowOnly = true := by
  have hx : (Evex.ofBytes p0 p1 p2).x = false := congrArg (!·) (high_bits_set h).2
  obtain ⟨hbhi, hv⟩ := Bool.or_eq_false_iff.mp hhigh
  obtain ⟨hb, hhi⟩ := Bool.or_eq_false_iff.mp hbhi
  rw [Evex.lowOnly, hx, hb, hhi, hv]; rfl

theorem decodeVex2_yields (m : Mode) (p : PrefixScan) (rexBefore : Bool) :
    Yields (fun n i rest => rexBefore = false ∧ Answers m (p.total + (n + 1)) i rest) (decodeVex2 m p rexBefore) :=
  .cons rfl fun v1 => .ite (fun _ => .reject _) fun hscope =>
    .cons rfl fun _ => .ite (fun _ => .reject _) fun _ => .tail fun t imm rest' i rest ht h => by
      obtain ⟨hm, hrex, htotal, -, rfl, rfl⟩ := vexChecks_instr h
      refine ⟨hrex, _, rfl, Form.wellFormed_vex_of hm (fun h32 => ?_) ht, ?_⟩
      · exact Vex2.ofByte_lowOnly (by simpa [h32] using (not_or.mp hscope).1)
      · simp only [htotal, Form.length, VexPrefix.size]; omega

theorem decodeVex3_yields (m : Mode) (p : PrefixScan) (rexBefore : Bool) :
    Yields (fun n i rest => rexBefore = false ∧ Answers m (p.total + (n + 1)) i rest) (decodeVex3 m p rexBefore) :=
  .cons rfl fun v1 => .ite (fun _ => .reject _) fun hscope => .cons rfl fun v2 => .ite (fun _ => .reject _) fun _ =>
    .cons rfl fun _ => .ite (fun _ => .reject _) fun _ => .tail fun t imm rest' i rest ht h => by
      obtain ⟨hm, hrex, htotal, hhigh, rfl, rfl⟩ := vexChecks_instr h
      refine ⟨hrex, _, rfl, Form.wellFormed_vex_of hm (fun h32 => ?_) ht, ?_⟩
      · exact Vex3.ofBytes_lowOnly (by simpa [h32] using (not_or.mp hscope).1)
          (Bool.eq_false_iff.mpr fun h => hhigh ⟨h32, h⟩)
      · simp only [htotal, Form.length, VexPrefix.size]; omega

theorem decodeEvex_yields (m : Mode) (p : PrefixScan) (rexBefore : Bool) :
    Yields (fun n i rest => rexBefore = false ∧ Answers m (p.total + (n + 1)) i rest) (decodeEvex m p rexBefore) :=
  .cons rfl fun p0 => .ite (fun _ => .reject _) fun hscope => .cons rfl fun p1 => .ite (fun _ => .reject _) fun _ =>
    .cons rfl fun p2 => .cons rfl fun _ => .ite (fun _ => .reject _) fun _ => .tail fun t imm rest' i rest ht h => by
      obtain ⟨hm, hrex, htotal, hhigh, rfl, rfl⟩ := vexChecks_instr h
      refine ⟨hrex, _, rfl, Form.wellFormed_evex_of hm (fun h32 => ?_) ht, ?_⟩
      · exact Evex.ofBytes_lowOnly (by simpa [h32] using (not_or.mp hscope).1)
          (Bool.eq_false_iff.mpr fun h => hhigh ⟨h32, h⟩)
      · simp only [htotal, Form.length]; omega

theorem decodeVexLike_yields (m : Mode) (p : PrefixScan) (rexBefore : Bool) (b : Byte) :
    Yields (fun n i rest => rexBefore = false ∧ Answers m (p.total + (n + 1)) i rest)
      (decodeVexLike m p rexBefore b) :=
  .ite (fun _ => decodeVex2_yields m p rexBefore) fun _ =>
    .ite (fun _ => decodeVex3_yields m p rexBefore) fun _ => decodeEvex_yields m p rexBefore

theorem decodeAfterPrefixes_yields (m : Mode) (p : PrefixScan) :
    Yields (fun n => Answers m (p.total + n)) (decodeAfterPrefixes m p) :=
  .cons rfl fun b =>
    .ite (fun _ => (decodeVexLike_yields m p false b).mono fun _ _ _ h => h.2) fun _ =>
    .ite (fun _ => decodeLegacy_yields (.inl rfl) p) fun _ =>
    .ite (fun hrex => .cons rfl fun c =>
      .ite (fun _ => (decodeVexLike_yields m p true c).mono fun _ _ _ h => by cases h.1) fun _ =>
      .ite (fun _ => decodeLegacy_yields (.inr hrex.1) p) fun _ =>
      .ite (fun _ => .reject _) fun _ => .reject _) fun _ => .reject _

/-- Settles O6: the decoder is put together from readers that answer encoding rows of the mode and count their bytes. -/
theorem decodedIsWellFormed : Obligations.DecodedIsWellFormed := by
  intro m bs i rest h
  obtain ⟨f, rfl, hwf, hlen⟩ := decodeAfterPrefixes_yields m _ _ i rest h
  have hform : f.instr.form = f := Laws.Form.instr_form f
  have hbs : (scanPrefixes .empty bs).1.total + (scanPrefixes .empty bs).2.length = bs.length :=
    (scanPrefixes_total .empty bs).trans (Nat.zero_add _)
  rw [Instr.wellFormed, Instr.core, Instr.length, hform]
  exact ⟨hwf, rfl, hbs.symm.trans hlen⟩

end Sys2Proof
end

section
/-! SUPPORT. The statements about what encoded fields mean and what a step makes of the decoder's answers: register
numbers, names, checks, and the two VEX prefixes (30_encoding.md R71 to R104). -/

namespace Sys2Proof.Machine

/-! ## Words, names and register numbers -/

/-- Settles O13: the decoder run on each vector's bytes. -/
theorem wordsDecodeToTheirInstructions : Obligations.WordsDecodeToTheirInstructions := by
  unfold Obligations.WordsDecodeToTheirInstructions
  decide

/-- Two instructions of one form have the same bytes and the same meaning. -/
theorem same_of_form {i j : Instr} (h : i.form = j.form) : encode i = encode j ∧ ∀ s, exec i s = exec j s :=
  ⟨by rw [encode, encode, h], fun s => by rw [exec_eq_run, exec_eq_run, h]⟩

/-- Names and their `imm8`, all of one form: each is that form with its `imm8`. -/
theorem form_of_names {Ops : Type} {names : List ((Ops → Instr) × BitVec 8)} {form : Ops → BitVec 8 → Form}
    (h : (names.map fun q o => (q.1 o).form) = names.map fun q o => form o q.2) {q : (Ops → Instr) × BitVec 8}
    (hq : q ∈ names) (o : Ops) : (q.1 o).form = form o q.2 :=
  congrFun (List.map_inj_left.mp h q hq) o

/-- Settles O14: each name is, as a form, CMPSD with its `imm8`. -/
theorem legacyPseudoMnemonics : Obligations.LegacyPseudoMnemonics := fun q hq =>
  have hform : ∀ o, (q.1 o).form = .legacy o q.2 := form_of_names rfl hq
  ⟨fun _ _ => same_of_form (hform _), fun _ _ _ => same_of_form (hform _)⟩

/-- Settles O15: each name is, as a form, VCMPSD with its `imm8`. -/
theorem vcmpsdPseudoMnemonics : Obligations.VcmpsdPseudoMnemonics := by
  refine ⟨fun q hq => ?_, fun q hq => ?_⟩
  · have hform : ∀ o, (q.1 o).form = .vex o q.2 := form_of_names rfl hq
    exact ⟨fun _ _ _ => same_of_form (hform _), fun _ _ _ => same_of_form (hform _)⟩
  · have hform : ∀ o, (q.1 o).form = .evex o q.2 := form_of_names rfl hq
    exact fun _ _ _ => same_of_form (hform _)

theorem destVec_toNat (e : ExtBits) (t : ModRM) : (destVec e t).toNat = 8 * e.r.toNat + t.reg.toNat := by
  rw [destVec, setWidth5_toNat, ext4_toNat]

theorem src2Vec_toNat (e : ExtBits) (n : BitVec 3) : (src2Vec e n).toNat = 8 * e.b.toNat + n.toNat := by
  rw [src2Vec, setWidth5_toNat, ext4_toNat]

/-- Settles O16: the sums of the prefix bits and the byte fields, at the bits of each prefix. -/
theorem registerNumbersOfTheFields : Obligations.RegisterNumbersOfTheFields := by
  refine ⟨fun q t => ?_, fun q n => ?_, fun v t => destVec_toNat _ t, fun v n => ?_, fun v t => destVec_toNat _ t,
    fun v n => src2Vec_toNat _ n, fun p v t => setWidth5_toNat _, fun p v t => setWidth5_toNat _, evexSrc1_toNat,
    fun e n => ext5_toNat e.x e.b n⟩
  · cases q <;> exact destVec_toNat _ t
  · cases q <;> exact src2Vec_toNat _ n
  · simpa [vexBits] using src2Vec_toNat (vexBits (.two v)) n

/-! ## What a step makes of the decoder's answers -/

/-- Settles O24: the step's answer to each rejection. -/
theorem stepAnswersRejections : Obligations.StepAnswersRejections := by
  intro s
  refine ⟨fun h => ?_, fun h => ?_, fun h => ?_, fun h => ?_, fun h => ?_⟩ <;> rw [step, h] <;> rfl

/-- Without a bound on the text and without fetch faults as many bytes are fetched as asked for (R95). -/
theorem State.fetchFrom_unbounded {s : State} (ht : s.text = none) (hf : s.fetchFaults = []) (n i : Nat) :
    s.fetchFrom n i = ((List.range' i n).map fun j => Memory.read s.mem (s.linear .cs s.pc j), .tooLong) := by
  induction n generalizing i with
  | zero => rfl
  | succ n ih => simp [State.fetchFrom, State.pastText, ht, hf, fetchFaultAt, ih, List.range'_succ]

/-- Settles O23: fifteen prefix bytes are fetched and the decoder asks for more. -/
theorem fifteenPrefixBytesRaiseGP : Obligations.FifteenPrefixBytesRaiseGP := by
  intro s ht hf hbytes
  have hfetch := s.fetchFrom_unbounded ht hf maxLength 0
  have hpre : ∀ b ∈ s.fetch.1, b ∈ prefixBytes := by
    rw [State.fetch, hfetch]
    simp only [List.mem_map, List.mem_range'_1]
    rintro b ⟨j, ⟨-, hj⟩, rfl⟩
    exact hbytes j (by simpa [maxLength] using hj)
  rw [step, decode_only_prefixes hpre, State.fetch, hfetch]
  rfl

/-! ## The checks before the operands -/

/-- Settles O25: no form is enabled in Mode16. -/
theorem everyFormUndefinedInMode16 : Obligations.EveryFormUndefinedInMode16 := fun i s hm =>
  exec_of_not_enabled (fun f => by cases f <;> simp [State.enabled, hm]) i

/-- Settles O30: by the definition of operand B of each form. -/
theorem secondSourceOperand : Obligations.SecondSourceOperand := fun _ _ _ _ =>
  ⟨fun _ _ => rfl, fun _ _ => rfl, fun _ _ => rfl, fun _ _ => rfl, fun _ _ => rfl, fun _ _ => rfl⟩

/-- Settles O57: no meaning reads those bits. -/
theorem ignoredPrefixBits : Obligations.IgnoredPrefixBits := fun _ _ _ _ =>
  ⟨fun _ _ _ _ _ => rfl, fun _ _ _ _ => rfl, fun _ _ _ _ _ _ _ _ => rfl, fun _ _ _ _ _ _ _ _ => rfl⟩

theorem baseSegment_ext4 (b : Bool) (n : BitVec 3) :
    baseSegment (ext4 b n) = if b = false ∧ (n = 4#3 ∨ n = 5#3) then .ss else .ds := by
  revert b n; decide

theorem operandSegment_default {p : Prefixes} (h : p.seg = none) (e : ExtBits) (f : MemForm) :
    operandSegment p e f = defaultSegment e f := by
  rw [operandSegment, h]

/-- Settles O52: the override, else the default by the form of the operand; the bases by the mode. -/
theorem segmentOfTheOperand : Obligations.SegmentOfTheOperand := by
  refine ⟨fun p e f g h => by rw [operandSegment, h], fun p e h => ?_, fun s hm => ?_, fun s hm => ?_⟩
  · simp only [operandSegment_default h, defaultSegment, baseSegment_ext4, implies_true, and_self]
  · simp only [State.segmentBase, if_pos hm, and_self]
  · simp only [State.segmentBase, if_neg hm, and_self]

/-! ## Reserved bits of `imm8` (R98) -/

theorem immClear_legacy_iff (imm : BitVec 8) : immClear .legacy imm = true ↔ imm.toNat < 8 := by
  revert imm; decide

theorem immClear_vex_iff (imm : BitVec 8) : immClear .vex imm = true ↔ imm.toNat < 32 := by
  revert imm; decide

theorem immClear_evex_iff (imm : BitVec 8) : immClear .evex imm = true ↔ imm.toNat < 32 := immClear_vex_iff imm

theorem State.refusesImm_of_clear {f : FormKind} {imm : BitVec 8} (h : immClear f imm = true) (s : State) :
    s.refusesImm f imm = false := by
  simp [State.refusesImm, h]

theorem State.refusesImm_of_ignore {s : State} (h : s.params.immReserved = .ignore) (f : FormKind) (imm : BitVec 8) :
    s.refusesImm f imm = false := by
  simp [State.refusesImm, h]

/-- Under `refuse` an enabled form with a reserved bit set is refused. -/
theorem State.checked_of_reserved {s : State} {f : FormKind} {ok : Bool} {imm : BitVec 8} (he : s.enabled f = true)
    (ho : ok = true) (hr : s.params.immReserved = .refuse) (hi : ¬immClear f imm = true) (body : Result) :
    s.checked f ok imm body = .refused .reservedImm := by
  simp [State.checked, State.refusesImm, he, ho, hr, hi]

/-- The checks see an `imm8` only through its being refused. -/
theorem State.checked_congr_imm {s : State} {f : FormKind} {imm imm' : BitVec 8}
    (h : s.refusesImm f imm = s.refusesImm f imm') (ok : Bool) (body : Result) :
    s.checked f ok imm body = s.checked f ok imm' body := by
  rw [State.checked, State.checked, h]

theorem predicateOf_legacy_and (imm : BitVec 8) : predicateOf .legacy (imm &&& 7#8) = predicateOf .legacy imm := by
  revert imm; decide

theorem predicateOf_vex_and (imm : BitVec 8) : predicateOf .vex (imm &&& 31#8) = predicateOf .vex imm := by
  revert imm; decide

theorem exec_instr (f : Form) (s : State) : exec f.instr s = Form.run f s := by
  rw [exec_eq_run, Laws.Form.instr_form]

/-- A form sees its `imm8` only through its being refused and its predicate number (R97, R98). -/
theorem runLegacy_congr_imm {s : State} {imm imm' : BitVec 8}
    (hr : s.refusesImm .legacy imm = s.refusesImm .legacy imm')
    (hp : predicateOf .legacy imm = predicateOf .legacy imm') (o : LegacyOps) :
    runLegacy o imm s = runLegacy o imm' s := by
  simp only [runLegacy, legacyCompare, State.checked_congr_imm hr, hp, Form.length]

theorem runVex_congr_imm {s : State} {imm imm' : BitVec 8} (hr : s.refusesImm .vex imm = s.refusesImm .vex imm')
    (hp : predicateOf .vex imm = predicateOf .vex imm') (o : VexOps) : runVex o imm s = runVex o imm' s := by
  simp only [runVex, vexCompare, State.checked_congr_imm hr, hp, Form.length]

theorem runEvex_congr_imm {s : State} {imm imm' : BitVec 8} (hr : s.refusesImm .evex imm = s.refusesImm .evex imm')
    (hp : predicateOf .evex imm = predicateOf .evex imm') (o : EvexOps) : runEvex o imm s = runEvex o imm' s := by
  simp only [runEvex, evexCompare, State.checked_congr_imm hr, hp, Form.length]

/-- Settles O28: the checks refuse exactly an `imm8` with a reserved bit under `refuse`; the rest of a form sees only
the predicate number, which holds no reserved bit. -/
theorem reservedImmediateBits : Obligations.ReservedImmediateBits := by
  intro s
  refine ⟨fun o imm he hr hi => ?_, fun o imm he hr hi => ?_, fun o imm he ho hr hi => ?_, fun imm hi => ?_,
    fun imm hi => ⟨?_, ?_⟩, fun hign => ⟨s.refusesImm_of_ignore hign, fun o imm => ?_, fun o imm => ?_,
      fun o imm => ?_⟩⟩
  · rw [exec_instr]
    exact State.checked_of_reserved he rfl hr ((immClear_legacy_iff imm).not.mpr hi.not_gt) _
  · rw [exec_instr]
    exact State.checked_of_reserved he rfl hr ((immClear_vex_iff imm).not.mpr hi.not_gt) _
  · rw [exec_instr]
    exact State.checked_of_reserved he ho hr ((immClear_evex_iff imm).not.mpr hi.not_gt) _
  · exact s.refusesImm_of_clear ((immClear_legacy_iff imm).mpr hi)
  · exact s.refusesImm_of_clear ((immClear_vex_iff imm).mpr hi)
  · exact s.refusesImm_of_clear ((immClear_evex_iff imm).mpr hi)
  · rw [exec_instr, exec_instr]
    exact runLegacy_congr_imm (by simp only [s.refusesImm_of_ignore hign]) (predicateOf_legacy_and imm).symm o
  · rw [exec_instr, exec_instr]
    exact runVex_congr_imm (by simp only [s.refusesImm_of_ignore hign]) (predicateOf_vex_and imm).symm o
  · rw [exec_instr, exec_instr]
    exact runEvex_congr_imm (by simp only [s.refusesImm_of_ignore hign]) (predicateOf_vex_and imm).symm o

/-! ## The two VEX prefixes (R77, 42_vcmpsd_vex.md R172) -/

/-- Only a RIP-relative operand's address depends on the instruction's length (R82). -/
theorem readMem_length {s : State} {mf : MemForm} (h : ∀ d, mf = .direct d → s.mode ≠ .mode64) (f : FormKind)
    (p : Prefixes) (e : ExtBits) (len len' : Nat) : readMem s f p e len mf = readMem s f p e len' mf := by
  have hraw : rawAddress s f e len mf = rawAddress s f e len' mf := by
    cases mf with
    | direct d => simp only [rawAddress, if_neg (h d rfl)]
    | _ => rfl
  rw [readMem, readMem, effectiveAddress, effectiveAddress, hraw]

/-- The same operands by VEX prefixes with the same fields. -/
structure SameVexFields (o o' : VexOps) : Prop where
  pfx : o'.pfx = o.pfx
  t : o'.t = o.t
  bits : vexBits o'.vex = vexBits o.vex
  vvvv : vexVvvv o'.vex = vexVvvv o.vex

section

variable {s t : State} {o o' : VexOps} {imm : BitVec 8} (hsame : SameVexFields o o')

include hsame

theorem SameVexFields.src1 : vexSrc1 o' = vexSrc1 o := by rw [vexSrc1, vexSrc1, hsame.vvvv]

/-- Operand B is the same but for a RIP-relative one. -/
theorem SameVexFields.vexB_eq (hrip : ∀ d, o.t.rm = .mem (.direct d) → s.mode ≠ .mode64) (len len' : Nat) :
    vexB s o' len' = vexB s o len := by
  rw [vexB, vexB, hsame.pfx, hsame.t, hsame.bits]
  split
  · rfl
  · next mf hmf => exact readMem_length (fun d hd => hrip d (hd ▸ hmf)) _ _ _ _ _

theorem SameVexFields.vexCompare_next {len : Nat} {b : Word} (h : vexCompare s o imm len b = .next t)
    (len' : Nat) :
    vexCompare s o' imm len' b = .next { t with pc := Mode.truncPc s.mode (s.pc + BitVec.ofNat 64 len') } := by
  unfold vexCompare at h ⊢
  rw [hsame.src1]
  split at h
  · cases h
    rw [vexDone, vexDone, hsame.src1, hsame.t, hsame.bits]
    simp [State.advance]
  · cases h

theorem SameVexFields.runVex_next (hrip : ∀ d, o.t.rm = .mem (.direct d) → s.mode ≠ .mode64)
    (h : runVex o imm s = .next t) :
    runVex o' imm s =
      .next { t with pc := Mode.truncPc s.mode (s.pc + BitVec.ofNat 64 (Form.vex o' imm).length) } := by
  obtain ⟨hchecks, hbody⟩ := State.checked_next_iff.mp h
  refine State.checked_next_iff.mpr ⟨hchecks, ?_⟩
  rw [hsame.vexB_eq hrip (Form.vex o imm).length]
  split at hbody
  · cases hbody
  · exact hsame.vexCompare_next hbody _

end

/-- Settles O58: the three-byte prefix has the fields of the two-byte one, and its own length. -/
theorem twoAndThreeByteVexAgree : Obligations.TwoAndThreeByteVexAgree := by
  intro p r w l l' v m imm s t hrip h
  have hsame : SameVexFields ⟨p, .two ⟨r, v, l⟩, m⟩ ⟨p, .three ⟨r, false, false, w, v, l'⟩, m⟩ :=
    ⟨rfl, rfl, rfl, rfl⟩
  have hlen : (Form.vex ⟨p, .three ⟨r, false, false, w, v, l'⟩, m⟩ imm).length = p.count + 6 + m.rm.size := by
    simp only [Form.length, VexPrefix.size]; omega
  exact hlen ▸ hsame.runVex_next hrip h

end Sys2Proof.Machine
end

section
/-! SUPPORT. The effective address as exact integer arithmetic (30_encoding.md R81 to R87). -/

namespace Sys2Proof.Machine

/-! ## Words as integers modulo `2 ^ 64` -/

theorem word_eq_ofInt (x : BitVec 64) : x = .ofInt 64 x.toNat := by simp

theorem shiftLeft_eq_ofInt (x : BitVec 64) (k : Nat) : x <<< k = .ofInt 64 (x.toNat * 2 ^ k) := by
  have hpow : ((2 : Int) ^ k) = ((2 ^ k : Nat) : Int) := by simp
  rw [hpow, ← Int.natCast_mul, BitVec.ofInt_natCast]
  exact BitVec.eq_of_toNat_eq (by simp [Nat.shiftLeft_eq])

/-! ## The address size (R81) -/

/-- `2 ^ asz`. -/
def AddrSize.modulus : AddrSize → Int
  | .a16 => 2 ^ 16
  | .a32 => 2 ^ 32
  | .a64 => 2 ^ 64

theorem AddrSize.trunc_ofInt (z : AddrSize) (n : Int) : ((z.trunc (.ofInt 64 n)).toNat : Int) = n % z.modulus := by
  cases z <;> simp [AddrSize.trunc, AddrSize.modulus] <;> omega

theorem effectiveAddress_toNat {s : State} {f : FormKind} {e : ExtBits} {len : Nat} {mf : MemForm} {n : Int}
    (h : rawAddress s f e len mf = .ofInt 64 n) (p : Prefixes) :
    ((effectiveAddress s f p e len mf).toNat : Int) = n % (addrSize s.mode p.a67).modulus := by
  rw [effectiveAddress, h, AddrSize.trunc_ofInt]

/-- The size of 32-bit and 64-bit addressing. -/
theorem addrSize_modulus {m : Mode} {a67 : Bool} (h : m = .mode64 ∨ (m = .mode32 ∧ a67 = false)) :
    (addrSize m a67).modulus = if m = .mode64 ∧ a67 = false then 2 ^ 64 else 2 ^ 32 := by
  rcases h with rfl | ⟨rfl, rfl⟩
  · cases a67 <;> rfl
  · rfl

/-! ## The parts of an address -/

/-- The factor of an 8-bit displacement as an integer (R83, R84). -/
theorem disp8Factor_eq (f : FormKind) : f.disp8Factor = .ofInt 64 (if f = .evex then 8 else 1) := by
  cases f <;> rfl

theorem disp8_eq_ofInt (f : FormKind) (d : BitVec 8) :
    d.signExtend 64 * f.disp8Factor = .ofInt 64 (d.toInt * (if f = .evex then 8 else 1)) := by
  rw [BitVec.ofInt_mul, ← disp8Factor_eq]; rfl

/-- The displacement of 32-bit and 64-bit addressing as an integer (R83, R84). -/
def exactDisp (f : FormKind) : Disp → Int
  | .none => 0
  | .d8 d => d.toInt * (if f = .evex then 8 else 1)
  | .d32 d => d.toInt

theorem dispValue_eq (f : FormKind) (d : Disp) : dispValue f d = .ofInt 64 (exactDisp f d) := by
  cases d with
  | none => rfl
  | d8 d => exact disp8_eq_ofInt f d
  | d32 d => rfl

theorem ext4_eq_four (hi : Bool) (n : BitVec 3) : ext4 hi n = 4#4 ↔ hi = false ∧ n = 4#3 := by
  revert hi n; decide

/-- The scaled index as an integer; the number 0100b is no index (R85). -/
def exactIndex (s : State) (e : ExtBits) (scale : BitVec 2) (index : BitVec 3) : Int :=
  if e.x = false ∧ index = 4#3 then 0 else (s.xreg (BitVec.ofBool e.x ++ index)).toNat * 2 ^ scale.toNat

theorem indexValue_eq (s : State) (e : ExtBits) (scale : BitVec 2) (index : BitVec 3) :
    indexValue s e scale index = .ofInt 64 (exactIndex s e scale index) := by
  unfold indexValue exactIndex
  simp only [ext4_eq_four]
  split
  · rfl
  · exact shiftLeft_eq_ofInt _ _

/-! ## The address -/

theorem rawAddress_direct (s : State) (f : FormKind) (e : ExtBits) (len : Nat) (d : BitVec 32) :
    rawAddress s f e len (.direct d) =
      .ofInt 64 ((if s.mode = .mode64 then (s.pc.toNat : Int) + len else 0) + d.toInt) := by
  rw [rawAddress]
  split
  · rw [BitVec.ofInt_add, BitVec.ofInt_add, ← word_eq_ofInt, BitVec.ofInt_natCast]; rfl
  · rw [Int.zero_add]; rfl

/-- Settles O50: every part of the sum is an integer modulo `2 ^ 64`, and the address size divides that. -/
theorem effectiveAddressIsExact : Obligations.EffectiveAddressIsExact := by
  intro s f p e len hm size disp index
  have hsize : (addrSize s.mode p.a67).modulus = size := addrSize_modulus hm
  have hdisp : ∀ d, disp d = exactDisp f d := fun d => by cases d <;> rfl
  refine ⟨fun d => ?_, fun rm d => ?_, fun sc ix bs d => ?_, fun sc ix d => ?_⟩ <;> rw [← hsize]
  · exact effectiveAddress_toNat (rawAddress_direct s f e len d) p
  · refine effectiveAddress_toNat ?_ p
    rw [hdisp, BitVec.ofInt_add, ← word_eq_ofInt, ← dispValue_eq]; rfl
  · refine effectiveAddress_toNat ?_ p
    rw [hdisp, BitVec.ofInt_add, BitVec.ofInt_add, ← word_eq_ofInt, ← dispValue_eq]
    exact congrArg (_ + · + _) (indexValue_eq s e sc ix)
  · refine effectiveAddress_toNat ?_ p
    rw [BitVec.ofInt_add]
    exact congrArg (· + _) (indexValue_eq s e sc ix)

/-! ## 16-bit addressing (R87) -/

/-- The displacement of 16-bit addressing as an integer; a 16-bit one counts from 0, which is the same modulo
`2 ^ 16`. -/
def exactDisp16 (f : FormKind) : Disp16 → Int
  | .none => 0
  | .d8 d => d.toInt * (if f = .evex then 8 else 1)
  | .d16 d => d.toInt

theorem disp16Value_eq (f : FormKind) (d : Disp16) : disp16Value f d = .ofInt 64 (exactDisp16 f d) := by
  cases d with
  | none => rfl
  | d8 d => exact disp8_eq_ofInt f d
  | d16 d => rfl

/-- Sign extension does not show modulo the width. -/
theorem toInt_modEq (d : BitVec 16) : d.toInt ≡ d.toNat [ZMOD 2 ^ 16] := by
  rw [BitVec.toInt_eq_toNat_bmod]
  exact Int.bmod_emod

/-- The address of a base sum, modulo `2 ^ 16`. -/
theorem based16_toNat {s : State} {p : Prefixes} (hsize : (addrSize s.mode p.a67).modulus = 2 ^ 16) {rm : BitVec 3}
    {b sum disp : Int} (hbase : base16 s rm = .ofInt 64 b) (hsum : b ≡ sum [ZMOD 2 ^ 16]) {f : FormKind} {d : Disp16}
    (hdisp : exactDisp16 f d ≡ disp [ZMOD 2 ^ 16]) (e : ExtBits) (len : Nat) :
    ((effectiveAddress s f p e len (.based16 rm d)).toNat : Int) = (sum + disp) % 2 ^ 16 := by
  have hraw : rawAddress s f e len (.based16 rm d) = .ofInt 64 (b + exactDisp16 f d) := by
    rw [BitVec.ofInt_add, ← hbase, ← disp16Value_eq]; rfl
  rw [effectiveAddress_toNat hraw, hsize]
  exact hsum.add hdisp

theorem word_add_eq_ofInt (x y : BitVec 64) : x + y = .ofInt 64 (x.toNat + y.toNat) := by
  rw [BitVec.ofInt_add, ← word_eq_ofInt, ← word_eq_ofInt]

theorem modEq_low (n : Int) : n ≡ n % 2 ^ 16 [ZMOD 2 ^ 16] := (Int.mod_modEq n _).symm

/-- Settles O51: row by row, the base sum and the displacement modulo `2 ^ 16`. -/
theorem sixteenBitAddressTable : Obligations.SixteenBitAddressTable := by
  intro s f p e len hm ha low disp
  have hsize : (addrSize s.mode p.a67).modulus = 2 ^ 16 := by rw [hm, ha]; rfl
  have hdisp : ∀ d, exactDisp16 f d ≡ disp d [ZMOD 2 ^ 16] := fun d => by
    cases d with
    | d16 d => exact toInt_modEq d
    | _ => rfl
  have two : ∀ {rm : BitVec 3} {n n' : BitVec 4}, base16 s rm = s.xreg n + s.xreg n' → ∀ d,
      ((effectiveAddress s f p e len (.based16 rm d)).toNat : Int) = (low n + low n' + disp d) % 2 ^ 16 :=
    fun h d => based16_toNat hsize (h.trans (word_add_eq_ofInt _ _)) ((modEq_low _).add (modEq_low _)) (hdisp d) e len
  have one : ∀ {rm : BitVec 3} {n : BitVec 4}, base16 s rm = s.xreg n → ∀ d,
      ((effectiveAddress s f p e len (.based16 rm d)).toNat : Int) = (low n + disp d) % 2 ^ 16 :=
    fun h d => based16_toNat hsize (h.trans (word_eq_ofInt _)) (modEq_low _) (hdisp d) e len
  refine ⟨fun d => ⟨?_, rfl⟩, ?_⟩
  · rw [effectiveAddress_toNat (n := d.toInt) rfl, hsize, toInt_modEq d]
    exact Int.emod_eq_of_lt (Int.natCast_nonneg _) (by exact_mod_cast d.isLt)
  · simp only [List.forall_mem_cons, List.not_mem_nil, false_imp_iff, implies_true, and_true]
    exact ⟨fun d => ⟨two rfl d, rfl⟩, fun d => ⟨two rfl d, rfl⟩, fun d => ⟨two rfl d, rfl⟩, fun d => ⟨two rfl d, rfl⟩,
      fun d => ⟨one rfl d, rfl⟩, fun d => ⟨one rfl d, rfl⟩, fun d => ⟨one rfl d, rfl⟩, fun d => ⟨one rfl d, rfl⟩⟩

end Sys2Proof.Machine
end

section
/-! SUPPORT. The statements about the predicate table, the conditions and the flags of a comparison (40_predicates.md
R123 to R125, R135, R136, R138 to R140). -/

namespace Sys2Proof.Machine

/-! ## The predicate table (R123 to R125) -/

theorem Rel.forall_iff {P : Rel → Prop} : (∀ r, P r) ↔ P .lt ∧ P .eq ∧ P .gt ∧ P .un :=
  ⟨fun h => ⟨h _, h _, h _, h _⟩, fun ⟨hlt, heq, hgt, hun⟩ r => by cases r <;> assumption⟩

/-- Settles O41: each of the 32 rows read. -/
theorem predicateTable : Obligations.PredicateTable := by
  unfold Obligations.PredicateTable
  decide

/-- Settles O42: each of the 32 rows beside the rows that one bit of the predicate leads to. -/
theorem predicateStructure : Obligations.PredicateStructure := by
  unfold Obligations.PredicateStructure
  simp only [Rel.forall_iff]
  decide

/-! ## The classes of a double by its fields (R120) -/

theorem fpExp_eq_iff (a : Word) (e : BitVec 11) : fpExp a = e.toNat ↔ a.extractLsb' 52 11 = e :=
  BitVec.toNat_inj

theorem fpFrac_ne_zero_iff (a : Word) : fpFrac a ≠ 0 ↔ a.extractLsb' 0 52 ≠ 0#52 :=
  BitVec.toNat_inj (y := 0#52) |>.not

/-- A NaN by its exponent and fraction. -/
theorem isNaN_iff (a : Word) : isNaN a = true ↔ fpExp a = 2047 ∧ fpFrac a ≠ 0 := by
  unfold isNaN fpClass
  split_ifs <;> simp_all

/-- A denormal by its exponent and fraction. -/
theorem isDenormal_iff (a : Word) : isDenormal a = true ↔ fpExp a = 0 ∧ fpFrac a ≠ 0 := by
  unfold isDenormal fpClass
  split_ifs <;> simp_all

/-! ## The conditions (R135, R136) -/

theorem isSNaN_iff (a : Word) : isSNaN a = true ↔ isNaN a = true ∧ a.getLsbD 51 = false := by simp [isSNaN]

theorem isQNaN_iff (a : Word) : isQNaN a = true ↔ isNaN a = true ∧ a.getLsbD 51 = true := by simp [isQNaN]

/-- A NaN is a signalling or a quiet one. -/
theorem isNaN_eq_isSNaN_or_isQNaN (a : Word) : isNaN a = (isSNaN a || isQNaN a) := by
  unfold isSNaN isQNaN
  cases a.getLsbD 51 <;> simp

/-- The invalid condition by the kinds of NaN. -/
theorem invalid_eq (a b : Word) (p : BitVec 5) :
    invalid a b p = (isSNaN a || isSNaN b || (isQNaN a || isQNaN b) && signals p) := by
  rw [invalid, isNaN_eq_isSNaN_or_isQNaN a, isNaN_eq_isSNaN_or_isQNaN b]
  cases isSNaN a <;> cases isSNaN b <;> rfl

/-- Without a NaN no comparison is invalid. -/
theorem invalid_of_no_nan {a b : Word} (ha : isNaN a = false) (hb : isNaN b = false) (p : BitVec 5) :
    invalid a b p = false := by
  simp [invalid, isSNaN, ha, hb]

theorem denorm_iff (a b : Word) (mx : BitVec 32) :
    denorm a b mx = true ↔ (isDenormal a = true ∨ isDenormal b = true) ∧ mx.getLsbD 6 = false ∧
      isNaN a = false ∧ isNaN b = false := by
  simp [denorm, mxDAZ, and_assoc]

/-- A NaN suppresses the denormal condition, and only a NaN is invalid. -/
theorem invalid_of_denorm {a b : Word} {mx : BitVec 32} (h : denorm a b mx = true) (p : BitVec 5) :
    invalid a b p = false := by
  obtain ⟨-, -, ha, hb⟩ := (denorm_iff a b mx).mp h
  exact invalid_of_no_nan ha hb p

theorem denorm_of_invalid {a b : Word} {p : BitVec 5} (h : invalid a b p = true) (mx : BitVec 32) :
    denorm a b mx = false :=
  Bool.eq_false_iff.mpr fun hd => by simp [invalid_of_denorm hd p] at h

/-- Settles O46: the condition by the kinds of NaN, and each kind by its bits. -/
theorem invalidOperationCondition : Obligations.InvalidOperationCondition := by
  intro a b p
  refine ⟨?_, isSNaN_iff a, isQNaN_iff a, fun h => ?_, fun ha hb h => ?_, fun ha hb => invalid_of_no_nan ha hb p⟩
  · rw [isNaN_iff, fpFrac_ne_zero_iff]
    exact and_congr_left' (fpExp_eq_iff a 0x7FF#11)
  · rcases h with h | h <;> simp [invalid_eq, h]
  · rcases h with h | h <;> simp [invalid_eq, ha, hb, h]

/-- Settles O47: the condition by the classes of the operands, and the denormals by their bits. -/
theorem denormalOperandCondition : Obligations.DenormalOperandCondition := by
  intro a b p mx
  refine ⟨?_, denorm_iff a b mx, fun ⟨hi, hd⟩ => ?_⟩
  · rw [isDenormal_iff, fpFrac_ne_zero_iff]
    exact and_congr_left' (fpExp_eq_iff a 0#11)
  · simp [invalid_of_denorm hd p] at hi

/-! ## The flags after a comparison (R138 to R140) -/

theorem withFlags_ie (mx : BitVec 32) (ie de : Bool) : (withFlags mx ie de).getLsbD 0 = (mx.getLsbD 0 || ie) := by
  rw [withFlags_getLsbD]; simp

theorem withFlags_de (mx : BitVec 32) (ie de : Bool) : (withFlags mx ie de).getLsbD 1 = (mx.getLsbD 1 || de) := by
  rw [withFlags_getLsbD]; simp

theorem withFlags_getLsbD_of_two_le {n : Nat} (hn : 2 ≤ n) (mx : BitVec 32) (ie de : Bool) :
    (withFlags mx ie de).getLsbD n = mx.getLsbD n := by
  have h0 : n ≠ 0 := by omega
  have h1 : n ≠ 1 := by omega
  simp [withFlags_getLsbD, h0, h1]

/-- Settles O49: either outcome carries MXCSR with the flags of the two conditions. -/
theorem compareSetsOnlyItsFlags : Obligations.CompareSetsOnlyItsFlags := by
  intro a b p os mx mx'
  constructor
  · intro h
    have hmx : mx' = withFlags mx (invalid a b p) (denorm a b mx) := by
      rw [← flagged_eq_withFlags]
      rcases compareOp_cases a b p false os mx with ⟨hs, -⟩ | ⟨-, -, hc⟩ | ⟨-, -, hc⟩
      · cases hs
      all_goals rcases h with ⟨_, h⟩ | ⟨_, h⟩ <;> rw [hc] at h <;> cases h; rfl
    subst hmx
    exact ⟨withFlags_ie .., withFlags_de .., fun n hn => withFlags_getLsbD_of_two_le hn ..⟩
  · intro r h
    rcases compareOp_cases a b p false os mx with ⟨hs, -⟩ | ⟨-, -, hc⟩ | ⟨-, -, hc⟩
    · cases hs
    all_goals rw [hc] at h; cases h
    rfl

/-- An unmasked invalid operation raises with IE set (R139). -/
theorem compareOp_of_invalid {a b : Word} {p : BitVec 5} {mx : BitVec 32} (hi : invalid a b p = true)
    (hm : mx.getLsbD 7 = false) (os : Bool) :
    compareOp a b p false os mx = .raises (if os then .xm else .ud) (mx ||| 1#32) := by
  have hu : unmasked a b p mx = true := by rw [unmasked, mxIM, hi, hm]; rfl
  simp [compareOp, hu, flagged_eq_withFlags, hi, denorm_of_invalid hi, withFlags]

/-- An unmasked denormal operand raises with DE set (R139). -/
theorem compareOp_of_denorm {a b : Word} {mx : BitVec 32} (hd : denorm a b mx = true) (hm : mx.getLsbD 8 = false)
    (p : BitVec 5) (os : Bool) :
    compareOp a b p false os mx = .raises (if os then .xm else .ud) (mx ||| 2#32) := by
  have hu : unmasked a b p mx = true := by rw [unmasked, mxDM, hd, hm]; simp
  simp [compareOp, hu, flagged_eq_withFlags, hd, invalid_of_denorm hd, withFlags]

/-! ## A form whose operand B is read (60_exceptions.md R211 step 5) -/

theorem runLegacy_of_value {s : State} {o : LegacyOps} {imm : BitVec 8} {b : Word} (hr : s.ready .legacy)
    (hi : s.immOk .legacy imm) (hb : legacyB s o (Form.legacy o imm).length = .value b) :
    runLegacy o imm s = legacyCompare s o imm (Form.legacy o imm).length b := by
  rw [runLegacy, State.checked_of_ok hr.1 rfl hi hr.2, hb]

theorem runVex_of_value {s : State} {o : VexOps} {imm : BitVec 8} {b : Word} (hr : s.ready .vex)
    (hi : s.immOk .vex imm) (hb : vexB s o (Form.vex o imm).length = .value b) :
    runVex o imm s = vexCompare s o imm (Form.vex o imm).length b := by
  rw [runVex, State.checked_of_ok hr.1 rfl hi hr.2, hb]

/-- The write-mask bit is 1 without a write mask, or when bit 0 of the mask is 1 (R182). -/
theorem evexMaskBit_iff (s : State) (o : EvexOps) :
    evexMaskBit s o = true ↔ o.evex.aaa = 0#3 ∨ (s.kreg o.evex.aaa).testBit 0 = true := by
  unfold evexMaskBit
  split_ifs with h <;> simp [h]

theorem runEvex_of_value {s : State} {o : EvexOps} {imm : BitVec 8} {b : Word} (hr : s.ready .evex)
    (hi : s.immOk .evex imm) (hf : evexFieldsOk o = true)
    (hm : o.evex.aaa = 0#3 ∨ (s.kreg o.evex.aaa).testBit 0 = true)
    (hb : evexB s o (Form.evex o imm).length = .value b) :
    runEvex o imm s = evexCompare s o imm (Form.evex o imm).length b := by
  rw [runEvex, State.checked_of_ok hr.1 hf hi hr.2, if_pos ((evexMaskBit_iff s o).mpr hm), hb]

theorem legacyCompare_of_raises {s : State} {o : LegacyOps} {imm : BitVec 8} {b : Word} {e : Exception}
    {mx : BitVec 32}
    (h : compareOp (s.vreg (destVec (rexBits o.rex) o.t))[0] b (predicateOf .legacy imm) false s.osxmmexcpt s.mxcsr =
      .raises e mx) (len : Nat) : legacyCompare s o imm len b = raise e (s.setMxcsr mx) := by
  simp only [legacyCompare, elem0, h]

theorem vexCompare_of_raises {s : State} {o : VexOps} {imm : BitVec 8} {b : Word} {e : Exception} {mx : BitVec 32}
    (h : compareOp (s.vreg (vexSrc1 o))[0] b (predicateOf .vex imm) false s.osxmmexcpt s.mxcsr = .raises e mx)
    (len : Nat) : vexCompare s o imm len b = raise e (s.setMxcsr mx) := by
  simp only [vexCompare, elem0, h]

theorem evexCompare_of_raises {s : State} {o : EvexOps} {imm : BitVec 8} {b : Word} {e : Exception} {mx : BitVec 32}
    (hbc : o.evex.bc = false)
    (h : compareOp (s.vreg (evexSrc1 o.evex))[0] b (predicateOf .evex imm) false s.osxmmexcpt s.mxcsr = .raises e mx)
    (len : Nat) : evexCompare s o imm len b = raise e (s.setMxcsr mx) := by
  have hsae : evexSae o = false := by simp [evexSae, hbc]
  simp only [evexCompare, elem0, hsae, h]

/-- Settles O37: each form compares once B is read, and its comparison raises with the condition's flag. -/
theorem unmaskedConditionRaises : Obligations.UnmaskedConditionRaises := by
  intro i s b e
  refine ⟨fun o imm hform hr hi hb => ?_, fun o imm hform hr hi hb => ?_,
    fun o imm hform hr hi hf hm hbc hb => ?_⟩ <;> rw [Instr.length, hform] at hb
  · rw [exec_legacy hform, runLegacy_of_value hr hi hb]
    exact ⟨fun ⟨h, hmask⟩ => legacyCompare_of_raises (compareOp_of_invalid h hmask _) _,
      fun ⟨h, hmask⟩ => legacyCompare_of_raises (compareOp_of_denorm h hmask _ _) _⟩
  · rw [exec_vex hform, runVex_of_value hr hi hb]
    exact ⟨fun ⟨h, hmask⟩ => vexCompare_of_raises (compareOp_of_invalid h hmask _) _,
      fun ⟨h, hmask⟩ => vexCompare_of_raises (compareOp_of_denorm h hmask _ _) _⟩
  · rw [exec_evex hform, runEvex_of_value hr hi hf hm hb]
    exact ⟨fun ⟨h, hmask⟩ => evexCompare_of_raises hbc (compareOp_of_invalid h hmask _) _,
      fun ⟨h, hmask⟩ => evexCompare_of_raises hbc (compareOp_of_denorm h hmask _ _) _⟩

end Sys2Proof.Machine
end

section
/-! SUPPORT. The statements about the relation of two doubles: their order is that of their integer keys, signed zeros
and infinities, and denormals under DAZ (40_predicates.md R122, R126, R137, R141). -/

namespace Sys2Proof.Machine

/-! ## Integer keys as values (R122) -/

/-- The key of positive infinity: exponent 2047 and fraction 0. -/
def infKey : Int := 2047 * 2 ^ 52

/-- The magnitude, times `2 ^ 1074`, of the finite double whose bits 62:0 are `m`: the exponent is `m / 2 ^ 52` and the
fraction `m % 2 ^ 52`. -/
def magnitude (m : Nat) : Nat := if m < 2 ^ 52 then m else (2 ^ 52 + m % 2 ^ 52) * 2 ^ (m / 2 ^ 52 - 1)

/-- The next bit pattern is the next fraction of the same exponent, or fraction 0 of the next exponent. -/
theorem magnitude_lt_succ (m : Nat) : magnitude m < magnitude (m + 1) := by
  have hpos : 0 < 2 ^ (m / 2 ^ 52 - 1) := by positivity
  by_cases hden : m + 1 < 2 ^ 52
  · rw [magnitude, magnitude, if_pos hden, if_pos (by omega)]
    omega
  by_cases hmax : m + 1 = 2 ^ 52
  · rw [magnitude, magnitude, if_neg hden, if_pos (by omega), hmax]
    omega
  rw [magnitude, magnitude, if_neg hden, if_neg (by omega)]
  by_cases hcarry : m % 2 ^ 52 + 1 = 2 ^ 52
  · have hfrac : (m + 1) % 2 ^ 52 = 0 := by omega
    have hexp : (m + 1) / 2 ^ 52 - 1 = m / 2 ^ 52 - 1 + 1 := by omega
    rw [hfrac, hexp, pow_succ' 2 (m / 2 ^ 52 - 1)]
    calc (2 ^ 52 + m % 2 ^ 52) * 2 ^ (m / 2 ^ 52 - 1)
        < (2 ^ 52 * 2) * 2 ^ (m / 2 ^ 52 - 1) := Nat.mul_lt_mul_of_pos_right (by omega) hpos
      _ = (2 ^ 52 + 0) * (2 * 2 ^ (m / 2 ^ 52 - 1)) := by ring
  · have hfrac : (m + 1) % 2 ^ 52 = m % 2 ^ 52 + 1 := by omega
    have hexp : (m + 1) / 2 ^ 52 = m / 2 ^ 52 := by omega
    rw [hfrac, hexp]
    exact Nat.mul_lt_mul_of_pos_right (by omega) hpos

theorem magnitude_strictMono : StrictMono magnitude := strictMono_nat_of_lt_succ magnitude_lt_succ

theorem sign_mul_magnitude (m : Nat) : (m : Int).sign * magnitude m = magnitude m := by
  cases m with
  | zero => rfl
  | succ m => rw [Int.natCast_succ, Int.sign_natCast_add_one, one_mul]

/-- The magnitude with the sign of the key. -/
def scaledValue (k : Int) : Int := k.sign * magnitude k.natAbs

theorem scaledValue_signed (neg : Bool) (m : Nat) : scaledValue (signed neg m) = signed neg (magnitude m) := by
  have h := sign_mul_magnitude m
  cases neg <;> simp [scaledValue, signed, h]

/-- It is odd, and increasing from 0 on. -/
theorem scaledValue_strictMono : StrictMono scaledValue := by
  refine strictMono_of_odd_strictMonoOn_nonneg (fun k => by simp [scaledValue]) fun j hj k hk hjk => ?_
  lift j to Nat using hj
  lift k to Nat using hk
  rw [scaledValue, scaledValue, Int.natAbs_natCast, Int.natAbs_natCast, sign_mul_magnitude, sign_mul_magnitude]
  exact_mod_cast magnitude_strictMono (Nat.cast_lt.mp hjk)

/-- The value that a key stands for; a key beyond those of the infinities has none. -/
inductive HasKey : ExtReal → Int → Prop where
  | negInf : HasKey .negInf (-infKey)
  | finite {k : Int} (hlo : -infKey < k) (hhi : k < infKey) : HasKey (.finite (scaledValue k)) k
  | posInf : HasKey .posInf infKey

/-- The order of the values is that of the keys. -/
theorem HasKey.lt_iff {x y : ExtReal} {j k : Int} (hx : HasKey x j) (hy : HasKey y k) :
    x.lt y = true ↔ j < k := by
  have hpos : 0 < infKey := by decide
  cases hx with
  | negInf => cases hy <;> simp [ExtReal.lt, *]
  | finite hlo hhi =>
    cases hy with
    | negInf => simp [ExtReal.lt, hlo.le]
    | finite => simp [ExtReal.lt, scaledValue_strictMono.lt_iff_lt]
    | posInf => simp [ExtReal.lt, hhi]
  | posInf => cases hy <;> simp [ExtReal.lt, le_of_lt, *]

/-- Equal values have equal keys. -/
theorem HasKey.eq_iff {x y : ExtReal} {j k : Int} (hx : HasKey x j) (hy : HasKey y k) : x = y ↔ j = k := by
  have hpos : 0 < infKey := by decide
  cases hx with
  | negInf => cases hy <;> simp [ne_of_lt, neg_lt_self hpos, *]
  | finite hlo hhi =>
    cases hy with
    | negInf => simp [hlo.ne']
    | finite => simp [scaledValue_strictMono.injective.eq_iff]
    | posInf => simp [hhi.ne]
  | posInf => cases hy <;> simp [ne_of_gt, neg_lt_self hpos, *]

/-! ## Keys by the fields of a double (R120) -/

theorem fpExp_le (b : Word) : fpExp b ≤ 2047 := Nat.le_of_lt_succ (b.extractLsb' 52 11).isLt

theorem fpFrac_lt (b : Word) : fpFrac b < 2 ^ 52 := (b.extractLsb' 0 52).isLt

/-- Bits 62:0 are the exponent above the fraction. -/
theorem fpKey_eq (b : Word) : fpKey b = signed (fpSign b) (fpExp b * 2 ^ 52 + fpFrac b) := by
  have h : (b.extractLsb' 0 63).toNat = fpExp b * 2 ^ 52 + fpFrac b := by
    simp only [fpExp, fpFrac, BitVec.extractLsb'_toNat, Nat.shiftRight_eq_div_pow]
    omega
  rw [fpKey, h, fpSign]

/-- The value of a zero, a denormal or a normal number. -/
theorem fpValue_of_exp_lt {b : Word} (h : fpExp b < 2047) :
    fpValue b = .finite (signed (fpSign b) (magnitude (fpExp b * 2 ^ 52 + fpFrac b))) := by
  have hf := fpFrac_lt b
  by_cases he : fpExp b = 0
  · have hmag : magnitude (fpExp b * 2 ^ 52 + fpFrac b) = fpFrac b := by
      rw [he, zero_mul, zero_add, magnitude, if_pos hf]
    rw [hmag]
    by_cases hz : fpFrac b = 0
    · simp [fpValue, fpClass, he, hz, signed]
    · simp [fpValue, fpClass, he, hz]
  · have hmag : magnitude (fpExp b * 2 ^ 52 + fpFrac b) = (2 ^ 52 + fpFrac b) * 2 ^ (fpExp b - 1) := by
      have hmod : (fpExp b * 2 ^ 52 + fpFrac b) % 2 ^ 52 = fpFrac b := by omega
      have hdiv : (fpExp b * 2 ^ 52 + fpFrac b) / 2 ^ 52 = fpExp b := by omega
      rw [magnitude, if_neg (by omega), hmod, hdiv]
    rw [hmag]
    simp [fpValue, fpClass, he, h.ne]

theorem fpValue_of_exp_eq {b : Word} (he : fpExp b = 2047) (hf : fpFrac b = 0) :
    fpValue b = if fpSign b then .negInf else .posInf := by
  simp [fpValue, fpClass, he, hf]

theorem signed_lt_and_lt {m n : Nat} (h : m < n) (neg : Bool) : -(n : Int) < signed neg m ∧ signed neg m < n := by
  cases neg <;> simp only [signed] <;> omega

/-- The key of a zero, a denormal or a normal number lies between those of the infinities. -/
theorem fpKey_of_exp_lt {b : Word} (h : fpExp b < 2047) : -infKey < fpKey b ∧ fpKey b < infKey := by
  have hm : fpExp b * 2 ^ 52 + fpFrac b < 2047 * 2 ^ 52 := by
    have := fpFrac_lt b
    omega
  rw [fpKey_eq]
  exact signed_lt_and_lt hm (fpSign b)

/-- A double that is no NaN has the value of its key. -/
theorem hasKey_fpKey {b : Word} (h : isNaN b = false) : HasKey (fpValue b) (fpKey b) := by
  by_cases he : fpExp b = 2047
  · have hf : fpFrac b = 0 := by
      by_contra hf
      simp [(isNaN_iff b).mpr ⟨he, hf⟩] at h
    rw [fpValue_of_exp_eq he hf, fpKey_eq, he, hf]
    cases fpSign b
    · exact .posInf
    · exact .negInf
  · have hlt : fpExp b < 2047 := lt_of_le_of_ne (fpExp_le b) he
    obtain ⟨hlo, hhi⟩ := fpKey_of_exp_lt hlt
    rw [fpValue_of_exp_lt hlt, ← scaledValue_signed, ← fpKey_eq]
    exact .finite hlo hhi

/-! ## The relation by the keys (R122) -/

theorem rel_eq_un_iff (a b : Word) : rel a b = .un ↔ isNaN a = true ∨ isNaN b = true := by
  unfold rel
  split_ifs with h <;> simpa using h

/-- The relation of two operands that are no NaN is the comparison of their keys. -/
theorem rel_of_no_nan {a b : Word} (ha : isNaN a = false) (hb : isNaN b = false) :
    rel a b = if fpKey a < fpKey b then .lt else if fpKey a = fpKey b then .eq else .gt := by
  simp only [rel, ha, hb, Bool.or_self, Bool.false_eq_true, if_false, (hasKey_fpKey ha).lt_iff (hasKey_fpKey hb),
    (hasKey_fpKey ha).eq_iff (hasKey_fpKey hb)]

/-- Settles O43: on doubles that are no NaN the order of the values is that of the keys. -/
theorem relationEqualsKeyComparison : Obligations.RelationEqualsKeyComparison := by
  intro a b
  refine ⟨rfl, rel_eq_un_iff a b, fun ha hb => ?_⟩
  rw [rel_of_no_nan ha hb]
  split_ifs <;> simp <;> omega

/-- The relation that is left after an exchange of the operands (R126). -/
def Rel.swap : Rel → Rel
  | .lt => .gt
  | .eq => .eq
  | .gt => .lt
  | .un => .un

theorem rel_swap (a b : Word) : rel b a = (rel a b).swap := by
  by_cases h : isNaN a = true ∨ isNaN b = true
  · rw [(rel_eq_un_iff a b).mpr h, (rel_eq_un_iff b a).mpr h.symm, Rel.swap]
  · obtain ⟨ha, hb⟩ : isNaN a = false ∧ isNaN b = false := by simpa using h
    rw [rel_of_no_nan ha hb, rel_of_no_nan hb ha]
    rcases lt_trichotomy (fpKey a) (fpKey b) with hk | hk | hk
    · simp [hk, hk.not_gt, hk.ne', Rel.swap]
    · simp [hk, Rel.swap]
    · simp [hk, hk.not_gt, hk.ne', Rel.swap]

/-- Settles O44: the relation of the exchanged operands, relation by relation. -/
theorem relationExchanged : Obligations.RelationExchanged := by
  intro a b
  rw [rel_swap a b]
  cases rel a b <;> decide

/-! ## Corners (R122, R141) -/

theorem fpExp_lt_of_finite {a : Word} (hn : fpClass a ≠ .nan) (hi : fpClass a ≠ .infinity) : fpExp a < 2047 := by
  refine lt_of_le_of_ne (fpExp_le a) fun he => ?_
  by_cases hf : fpFrac a = 0
  · exact hi (by simp [fpClass, he, hf])
  · exact hn (by simp [fpClass, he, hf])

theorem rel_self (a : Word) : rel a a = if isNaN a then .un else .eq := by
  cases h : isNaN a
  · simp [rel_of_no_nan h h]
  · simpa using (rel_eq_un_iff a a).mpr (.inl h)

theorem rel_eq_lt_of_fpKey_lt {a b : Word} (ha : isNaN a = false) (hb : isNaN b = false) (h : fpKey a < fpKey b) :
    rel a b = .lt := by
  rw [rel_of_no_nan ha hb, if_pos h]

theorem rel_eq_eq_of_fpKey_eq {a b : Word} (ha : isNaN a = false) (hb : isNaN b = false) (h : fpKey a = fpKey b) :
    rel a b = .eq := by
  rw [rel_of_no_nan ha hb, if_neg h.not_lt, if_pos h]

/-- Settles O45: by the keys of the zeros and of the infinities. -/
theorem relationCorners : Obligations.RelationCorners := by
  refine ⟨rel_eq_eq_of_fpKey_eq (by decide) (by decide) (by decide),
    rel_eq_eq_of_fpKey_eq (by decide) (by decide) (by decide), rel_self _, rel_self _, fun a hn hi => ?_, rel_self⟩
  have ha : isNaN a = false := by simpa [isNaN] using hn
  obtain ⟨hlo, hhi⟩ := fpKey_of_exp_lt (fpExp_lt_of_finite hn hi)
  exact ⟨rel_eq_lt_of_fpKey_lt (by decide) ha hlo, rel_eq_lt_of_fpKey_lt ha (by decide) hhi⟩

/-! ## Denormals under DAZ (R137) -/

/-- The zero of either sign has key 0 and is no NaN. -/
theorem isNaN_and_fpKey_of_signed_zero (c : BitVec 1) : isNaN (c ++ 0#63) = false ∧ fpKey (c ++ 0#63) = 0 := by
  revert c; decide

theorem extractLsb'_sign_append_zero (a : Word) : a.extractLsb' 63 1 ++ 0#63 = a &&& 0x8000000000000000#64 := by
  have hsign : a.extractLsb' 63 1 = BitVec.ofBool (a.getLsbD 63) := by
    ext i hi
    simp [show i = 0 by omega]
  have hmask : 0x8000000000000000#64 = BitVec.twoPow 64 63 := rfl
  rw [hsign, hmask, BitVec.and_twoPow]
  cases a.getLsbD 63 <;> rfl

theorem dazed_of_denormal {a : Word} {mx : BitVec 32} (hdaz : mx.getLsbD 6 = true) (ha : isDenormal a = true) :
    dazed mx a = a.extractLsb' 63 1 ++ 0#63 := if_pos (by rw [mxDAZ, hdaz, ha]; rfl)

theorem dazed_of_not {a : Word} {mx : BitVec 32} (h : mx.getLsbD 6 = false ∨ isDenormal a = false) :
    dazed mx a = a := if_neg (by rcases h with h | h <;> simp only [mxDAZ, h] <;> simp)

/-- The relation sees an operand only through its key and its being a NaN. -/
theorem rel_congr_left {a a' : Word} (hn : isNaN a = isNaN a') (hk : fpKey a = fpKey a') (b : Word) :
    rel a b = rel a' b := by
  by_cases h : isNaN a = true ∨ isNaN b = true
  · rw [(rel_eq_un_iff a b).mpr h, (rel_eq_un_iff a' b).mpr (hn ▸ h)]
  · obtain ⟨ha, hb⟩ : isNaN a = false ∧ isNaN b = false := by simpa using h
    rw [rel_of_no_nan ha hb, rel_of_no_nan (hn ▸ ha) hb, hk]

/-- Under DAZ a denormal is in the relation that zero is in. -/
theorem rel_dazed_of_denormal {a : Word} {mx : BitVec 32} (hdaz : mx.getLsbD 6 = true) (ha : isDenormal a = true)
    (b : Word) : rel (dazed mx a) b = rel 0#64 b := by
  obtain ⟨hn, hk⟩ := isNaN_and_fpKey_of_signed_zero (a.extractLsb' 63 1)
  rw [dazed_of_denormal hdaz ha]
  exact rel_congr_left hn hk b

/-- Settles O48: a denormal is compared as the zero of its sign, which no relation tells from zero. -/
theorem dazComparesDenormalsAsZero : Obligations.DazComparesDenormalsAsZero := by
  intro a b p mx
  refine ⟨rfl, dazed_of_not, fun hdaz ha => ?_⟩
  have hz : dazed mx 0#64 = 0#64 := dazed_of_not (.inr (by decide))
  have hleft : ∀ c, rel (dazed mx a) c = rel 0#64 c := rel_dazed_of_denormal hdaz ha
  have hright : ∀ c, rel c (dazed mx a) = rel c 0#64 := fun c => by rw [rel_swap _ c, rel_swap _ c, hleft]
  refine ⟨?_, by simp [denorm, mxDAZ, hdaz], ?_, ?_, fun hb => ?_⟩
  · rw [dazed_of_denormal hdaz ha, extractLsb'_sign_append_zero]
  · rw [compareResult, compareResult, hleft, hz]
  · rw [compareResult, compareResult, hright, hz]
  · rw [compareResult, hleft, rel_swap (dazed mx b), rel_dazed_of_denormal hdaz hb, rel_self]
    rfl

end Sys2Proof.Machine
end

section
/-! SUPPORT. The statement about the legacy form of 41_cmpsd_legacy.md: with its conditions masked it completes. -/

namespace Sys2Proof.Machine

/-! ## A comparison that does not raise (40_predicates.md R139, R140) -/

/-- Without sae, when each condition that holds is masked, the comparison is done and sets the conditions' flags. -/
theorem compareOp_of_masked {a b : Word} {p : BitVec 5} {mx : BitVec 32}
    (hi : invalid a b p = true → mx.getLsbD 7 = true) (hd : denorm a b mx = true → mx.getLsbD 8 = true) (os : Bool) :
    compareOp a b p false os mx =
      .done (compareResult a b p mx) (withFlags mx (invalid a b p) (denorm a b mx)) := by
  have hu : unmasked a b p mx = false := by simpa [unmasked, mxIM, mxDM] using ⟨hi, hd⟩
  simp [compareOp, hu, flagged_eq_withFlags]

theorem legacyCompare_of_done {s : State} {o : LegacyOps} {imm : BitVec 8} {b : Word} {r : Bool} {mx : BitVec 32}
    (h : compareOp (s.vreg (destVec (rexBits o.rex) o.t))[0] b (predicateOf .legacy imm) false s.osxmmexcpt s.mxcsr =
      .done r mx) (len : Nat) : legacyCompare s o imm len b = .next (legacyDone s o len r mx) := by
  simp only [legacyCompare, elem0, h]

/-! ## What a completed legacy form wrote (R161) -/

theorem withLow_getElem_zero (old : VecReg) (w : Word) : (withLow old w)[0] = w := by simp [withLow]

theorem legacyDone_vreg_dest (s : State) (o : LegacyOps) (len : Nat) (r : Bool) (mx : BitVec 32) :
    (legacyDone s o len r mx).vreg (destVec (rexBits o.rex) o.t) =
      withLow (s.vreg (destVec (rexBits o.rex) o.t)) (boolWord r) := by
  simp [legacyDone]

theorem legacyDone_mxcsr (s : State) (o : LegacyOps) (len : Nat) (r : Bool) (mx : BitVec 32) :
    (legacyDone s o len r mx).mxcsr = mx := by
  simp [legacyDone]

theorem legacyDone_answers (s : State) (o : LegacyOps) (len : Nat) (r : Bool) (mx : BitVec 32) :
    (legacyDone s o len r mx).answers = if isMem o.t.rm then s.answers.tail else s.answers := by
  simp [legacyDone, State.afterRead_answers]

theorem legacyDone_draws (s : State) (o : LegacyOps) (len : Nat) (r : Bool) (mx : BitVec 32) :
    (legacyDone s o len r mx).draws = s.draws := by
  simp [legacyDone]

/-- Settles O31: the checks pass and B is read, so the form compares; no condition raises, so it answers a next state.
Its destination, flags and oracle position are those of `legacyDone`; the rest is every instruction's frame. -/
theorem cmpsdCompletes : Obligations.CmpsdCompletes := by
  intro i o imm s b hform hr himm hb d a p hi hd
  have hlen : i.length = (Form.legacy o imm).length := by rw [Instr.length, hform]
  rw [hlen] at hb
  have hnext : exec i s = .next (legacyDone s o (Form.legacy o imm).length (compareResult a b p s.mxcsr)
      (withFlags s.mxcsr (invalid a b p) (denorm a b s.mxcsr))) := by
    rw [exec_legacy hform, runLegacy_of_value hr himm hb]
    exact legacyCompare_of_done (compareOp_of_masked hi hd s.osxmmexcpt) _
  obtain ⟨hrest, -, -, -, hpc, hlegacy, -, -⟩ := everyInstructionFrame i s _ hnext
  obtain ⟨hkreg, hvreg⟩ := hlegacy o imm hform
  refine ⟨_, hnext, ?_, fun j hj => ?_, hvreg, hkreg, legacyDone_mxcsr .., hpc, legacyDone_answers ..,
    legacyDone_draws .., hrest⟩
  · rw [legacyDone_vreg_dest, withLow_getElem_zero]; rfl
  · rw [legacyDone_vreg_dest]
    exact withLow_getElem_of_pos _ _ (Fin.pos_iff_ne_zero.mpr hj)

end Sys2Proof.Machine
end

section
/-! SUPPORT. The statement about the VEX form of 42_vcmpsd_vex.md: with its conditions masked it completes. -/

namespace Sys2Proof.Machine

theorem vexCompare_of_done {s : State} {o : VexOps} {imm : BitVec 8} {b : Word} {r : Bool} {mx : BitVec 32}
    (h : compareOp (s.vreg (vexSrc1 o))[0] b (predicateOf .vex imm) false s.osxmmexcpt s.mxcsr = .done r mx)
    (len : Nat) : vexCompare s o imm len b = .next (vexDone s o len r mx) := by
  simp only [vexCompare, elem0, h]

/-! ## What a completed VEX form wrote (R171) -/

theorem vexValue_getElem_zero (src1 : VecReg) (r : Bool) : (vexValue src1 r)[0] = boolWord r := rfl

theorem vexValue_getElem_one (src1 : VecReg) (r : Bool) : (vexValue src1 r)[1] = src1[1] := rfl

theorem vexDone_vreg_dest (s : State) (o : VexOps) (len : Nat) (r : Bool) (mx : BitVec 32) :
    (vexDone s o len r mx).vreg (destVec (vexBits o.vex) o.t) = vexValue (s.vreg (vexSrc1 o)) r := by
  simp [vexDone]

theorem vexDone_mxcsr (s : State) (o : VexOps) (len : Nat) (r : Bool) (mx : BitVec 32) :
    (vexDone s o len r mx).mxcsr = mx := by
  simp [vexDone]

theorem vexDone_answers (s : State) (o : VexOps) (len : Nat) (r : Bool) (mx : BitVec 32) :
    (vexDone s o len r mx).answers = if isMem o.t.rm then s.answers.tail else s.answers := by
  simp [vexDone, State.afterRead_answers]

theorem vexDone_draws (s : State) (o : VexOps) (len : Nat) (r : Bool) (mx : BitVec 32) :
    (vexDone s o len r mx).draws = s.draws := by
  simp [vexDone]

/-- Settles O32: the checks pass and B is read, so the form compares element 0 of its first source with B; no condition
raises, so it answers a next state. The destination is `vexValue`, element by element; the rest is that of `vexDone`
and of every instruction's frame. -/
theorem vcmpsdVexCompletes : Obligations.VcmpsdVexCompletes := by
  intro i o imm s b hform hr himm hb d a p hi hd
  have hlen : i.length = (Form.vex o imm).length := by rw [Instr.length, hform]
  rw [hlen] at hb
  have hnext : exec i s = .next (vexDone s o (Form.vex o imm).length (compareResult a b p s.mxcsr)
      (withFlags s.mxcsr (invalid a b p) (denorm a b s.mxcsr))) := by
    rw [exec_vex hform, runVex_of_value hr himm hb]
    exact vexCompare_of_done (compareOp_of_masked hi hd s.osxmmexcpt) _
  obtain ⟨hrest, -, -, -, hpc, -, hvex, -⟩ := everyInstructionFrame i s _ hnext
  obtain ⟨hkreg, hvreg⟩ := hvex o imm hform
  refine ⟨_, hnext, ?_, ?_, fun j hj => ?_, hvreg, hkreg, vexDone_mxcsr .., hpc, vexDone_answers ..,
    vexDone_draws .., hrest⟩ <;> rw [vexDone_vreg_dest]
  · rw [vexValue_getElem_zero]; rfl
  · rw [vexValue_getElem_one]
  · exact vexValue_getElem_of_two_le _ _ hj

end Sys2Proof.Machine
end

section
/-! SUPPORT. The statements about the EVEX form of 43_vcmpsd_evex.md: it completes with the comparison's result, or with
0 where its write mask is off, and it reads its write mask's bit 0 only. -/

namespace Sys2Proof.Machine

/-! ## The write-mask bit is 1 (R181, R183) -/

/-- Under sae no condition stops a comparison and none sets a flag; else each condition that holds must be masked. -/
theorem compareOp_of_sae_or_masked {a b : Word} {p : BitVec 5} {sae : Bool} {mx : BitVec 32}
    (hi : sae = false → invalid a b p = true → mx.getLsbD 7 = true)
    (hd : sae = false → denorm a b mx = true → mx.getLsbD 8 = true) (os : Bool) :
    compareOp a b p sae os mx =
      .done (compareResult a b p mx) (if sae then mx else withFlags mx (invalid a b p) (denorm a b mx)) := by
  cases sae
  · exact compareOp_of_masked (hi rfl) (hd rfl) os
  · rfl

theorem evexCompare_of_done {s : State} {o : EvexOps} {imm : BitVec 8} {b : Word} {r : Bool} {mx : BitVec 32}
    (h : compareOp (s.vreg (evexSrc1 o.evex))[0] b (predicateOf .evex imm) (evexSae o) s.osxmmexcpt s.mxcsr =
      .done r mx) (len : Nat) : evexCompare s o imm len b = .next (evexDone s o len r mx) := by
  simp only [evexCompare, elem0, h]

/-- The destination mask register holds the value written, all of it. -/
theorem evexWritten_kreg_dest (s : State) (o : EvexOps) (len : Nat) (m : MaskReg) :
    (evexWritten s o len m).kreg o.t.reg = m := by
  simp [evexWritten]

theorem evexWritten_mxcsr (s : State) (o : EvexOps) (len : Nat) (m : MaskReg) :
    (evexWritten s o len m).mxcsr = s.mxcsr := rfl

theorem evexWritten_answers (s : State) (o : EvexOps) (len : Nat) (m : MaskReg) :
    (evexWritten s o len m).answers = s.answers := rfl

theorem evexWritten_draws (s : State) (o : EvexOps) (len : Nat) (m : MaskReg) :
    (evexWritten s o len m).draws = s.draws := rfl

theorem evexDone_answers (s : State) (o : EvexOps) (len : Nat) (r : Bool) (mx : BitVec 32) :
    (evexDone s o len r mx).answers = if isMem o.t.rm then s.answers.tail else s.answers :=
  s.afterRead_answers o.t.rm

theorem evexDone_draws (s : State) (o : EvexOps) (len : Nat) (r : Bool) (mx : BitVec 32) :
    (evexDone s o len r mx).draws = s.draws :=
  s.afterRead_draws o.t.rm

/-- Settles O33: the checks pass, the write-mask bit is 1 and B is read, so the form compares; sae or the masks let no
condition raise, so it answers a next state. Its destination, flags and oracle position are those of `evexDone`; the
rest is every instruction's frame. -/
theorem vcmpsdEvexCompletes : Obligations.VcmpsdEvexCompletes := by
  intro i o imm s b hform hr himm hf hm hb a p sae hi hd
  have hlen : i.length = (Form.evex o imm).length := by rw [Instr.length, hform]
  rw [hlen] at hb
  have hnext : exec i s = .next (evexDone s o (Form.evex o imm).length (compareResult a b p s.mxcsr)
      (if sae then s.mxcsr else withFlags s.mxcsr (invalid a b p) (denorm a b s.mxcsr))) := by
    rw [exec_evex hform, runEvex_of_value hr himm hf hm hb]
    exact evexCompare_of_done (compareOp_of_sae_or_masked hi hd s.osxmmexcpt) _
  obtain ⟨hrest, -, -, -, hpc, -, -, hevex⟩ := everyInstructionFrame i s _ hnext
  obtain ⟨hvreg, hkreg⟩ := hevex o imm hform
  exact ⟨_, hnext, evexWritten_kreg_dest .., hkreg, hvreg, evexWritten_mxcsr .., hpc, evexDone_answers ..,
    evexDone_draws .., hrest⟩

/-! ## The write-mask bit is 0 (R182, R184) -/

/-- With a write mask whose bit 0 is 0 an enabled form makes no comparison. -/
theorem runEvex_of_maskedOff {s : State} {o : EvexOps} {imm : BitVec 8} (hr : s.ready .evex)
    (hi : s.immOk .evex imm) (hf : evexFieldsOk o = true) (haaa : o.evex.aaa ≠ 0#3)
    (hm : (s.kreg o.evex.aaa).testBit 0 = false) :
    runEvex o imm s = evexMaskedOff s o (Form.evex o imm).length := by
  have hbit : ¬evexMaskBit s o = true := by simp [evexMaskBit_iff, haaa, hm]
  rw [runEvex, State.checked_of_ok hr.1 hf hi hr.2, if_neg hbit]

/-- A register operand: no read and no free value. -/
theorem evexMaskedOff_of_reg {s : State} {o : EvexOps} (h : isMem o.t.rm = false) (len : Nat) :
    evexMaskedOff s o len = .next (evexWritten s o len 0) := by
  unfold evexMaskedOff
  split
  · rfl
  · next mf hmf => rw [hmf] at h; cases h

/-- A memory operand whose read is suppressed. -/
theorem evexMaskedOff_of_suppressed {s : State} {o : EvexOps} (h : isMem o.t.rm = true)
    (ht : maskedLoadTaken s = false) (len : Nat) :
    evexMaskedOff s o len = .next (evexWritten s.drawn o len 0) := by
  unfold evexMaskedOff
  split
  · next n hn => rw [hn] at h; cases h
  · rw [if_neg (by simp [ht])]

theorem exists_mem_of_isMem {rm : RegMem} (h : isMem rm = true) : ∃ mf, rm = .mem mf := by
  cases rm with
  | reg n => cases h
  | mem mf => exact ⟨mf, rfl⟩

/-- Operand B in memory is one read (20_memory.md R52). -/
theorem evexB_of_mem {o : EvexOps} {mf : MemForm} (h : o.t.rm = .mem mf) (s : State) (len : Nat) :
    evexB s o len = readMem s .evex o.pfx (evexBits o.evex) len mf := by
  rw [evexB, h]

/-- A memory operand whose read is taken: a value is discarded and a fault is raised. -/
theorem evexMaskedOff_of_taken {s : State} {o : EvexOps} (h : isMem o.t.rm = true) (ht : maskedLoadTaken s = true)
    (len : Nat) :
    (∀ b, evexB s o len = .value b → evexMaskedOff s o len = .next (evexWritten s.drawn.answered o len 0)) ∧
    (∀ e, evexB s o len = .fault e → evexMaskedOff s o len = raise e s) := by
  obtain ⟨mf, hmf⟩ := exists_mem_of_isMem h
  rw [evexB_of_mem hmf, evexMaskedOff, hmf]
  simp only [ht, if_true]
  exact ⟨fun b hb => by rw [hb], fun e he => by rw [he]⟩

theorem maskedLoadTaken_ne_suppressed {s : State} (ht : maskedLoadTaken s = true) :
    s.params.maskedLoadFaults ≠ .suppressed := fun h => by simp [maskedLoadTaken, h] at ht

/-- Where no taken read faults, 0 is written over a state that has moved the oracle at most, and not even that for a
register operand. -/
theorem evexMaskedOff_completes {s : State} {o : EvexOps} {len : Nat}
    (h : isMem o.t.rm = false ∨ s.params.maskedLoadFaults = .suppressed ∨ ∃ b, evexB s o len = .value b) :
    ∃ u, evexMaskedOff s o len = .next (evexWritten u o len 0) ∧ u.mxcsr = s.mxcsr ∧
      (isMem o.t.rm = false → u = s) := by
  cases hmem : isMem o.t.rm
  case false => exact ⟨s, evexMaskedOff_of_reg hmem len, rfl, fun _ => rfl⟩
  case true =>
    cases ht : maskedLoadTaken s
    case false => exact ⟨s.drawn, evexMaskedOff_of_suppressed hmem ht len, s.drawn_mxcsr, nofun⟩
    case true =>
      obtain ⟨b, hb⟩ : ∃ b, evexB s o len = .value b := by simpa [hmem, maskedLoadTaken_ne_suppressed ht] using h
      exact ⟨s.drawn.answered, (evexMaskedOff_of_taken hmem ht len).1 b hb, s.drawn_mxcsr, nofun⟩

/-- Settles O34: the checks pass and the form writes 0; the rest is every instruction's frame. -/
theorem vcmpsdEvexMaskedOffCompletes : Obligations.VcmpsdEvexMaskedOffCompletes := by
  intro i o imm s hform hr himm hf haaa hm hread
  have hlen : i.length = (Form.evex o imm).length := by rw [Instr.length, hform]
  rw [hlen] at hread
  obtain ⟨u, hoff, hmx, hreg⟩ := evexMaskedOff_completes hread
  have hnext : exec i s = .next (evexWritten u o (Form.evex o imm).length 0) := by
    rw [exec_evex hform, runEvex_of_maskedOff hr himm hf haaa hm, hoff]
  obtain ⟨hrest, -, -, -, hpc, -, -, hevex⟩ := everyInstructionFrame i s _ hnext
  obtain ⟨hvreg, hkreg⟩ := hevex o imm hform
  refine ⟨_, hnext, evexWritten_kreg_dest .., hkreg, hvreg, hmx, hpc, hrest, fun h => ?_⟩
  rw [hreg h]
  exact ⟨evexWritten_answers .., evexWritten_draws ..⟩

/-- Settles O35: by whether the read is taken, which the parameter says, or the free value under `either`. -/
theorem maskedLoadFaultsParameter : Obligations.MaskedLoadFaultsParameter := by
  intro i o imm s hform hr himm hf haaa hm hmem suppressed taken
  have hlen : i.length = (Form.evex o imm).length := by rw [Instr.length, hform]
  have hrun : exec i s = evexMaskedOff s o i.length := by
    rw [exec_evex hform, runEvex_of_maskedOff hr himm hf haaa hm, hlen]
  have hsuppressed (ht : maskedLoadTaken s = false) : suppressed :=
    ⟨_, hrun.trans (evexMaskedOff_of_suppressed hmem ht _), evexWritten_kreg_dest .., s.drawn_answers⟩
  have htaken (ht : maskedLoadTaken s = true) : taken := by
    obtain ⟨hvalue, hfault⟩ := evexMaskedOff_of_taken hmem ht i.length
    dsimp only [taken]
    split
    · next e he => exact hrun.trans (hfault e he)
    · next b hb =>
      exact ⟨_, hrun.trans (hvalue b hb), evexWritten_kreg_dest .., congrArg List.tail s.drawn_answers⟩
  refine ⟨fun h => hsuppressed (by rw [maskedLoadTaken, h]), fun h => htaken (by rw [maskedLoadTaken, h]),
    fun _ => ?_⟩
  cases ht : maskedLoadTaken s
  · exact .inl (hsuppressed ht)
  · exact .inr (htaken ht)

/-! ## The write mask is read at bit 0 only (R182) -/

theorem evexMaskBit_setKreg {s : State} {o : EvexOps} {m : MaskReg}
    (h : m.testBit 0 = (s.kreg o.evex.aaa).testBit 0) :
    evexMaskBit (s.setKreg o.evex.aaa m) o = evexMaskBit s o := by
  rw [evexMaskBit, evexMaskBit, State.setKreg_kreg_same, h]

/-- Settles O59: the write-mask bit is the same in both states, and the form sees no more of the mask registers. -/
theorem writeMaskUpperBitsUnread : Obligations.WriteMaskUpperBitsUnread := by
  intro i o imm s t m hform hbit h
  rw [exec_evex hform] at h ⊢
  rw [runEvex_setKreg o.evex.aaa m (evexMaskBit_setKreg hbit) h]
  exact congrArg _ (if_congr eq_comm rfl rfl)

end Sys2Proof.Machine
end

section
/-! SUPPORT. The statements about fetch and the step of 60_exceptions.md R211: a step runs the instruction whose bytes it
fetches, and a fetch fault within an instruction comes first. -/

namespace Sys2Proof.Machine

/-! ## What is fetched (R211 step 1) -/

/-- The bytes `bs` can be fetched at `pc + i` and on: they stand in memory inside the program text, with no fetch fault
among them (20_memory.md R57, 70_reset_and_hazards.md R247). -/
def State.Fetchable (s : State) (i : Nat) (bs : List Byte) : Prop :=
  ∀ (j : Nat) (h : j < bs.length), s.pastText (i + j) = false ∧
    fetchFaultAt s.fetchFaults (s.linear .cs s.pc (i + j)) = none ∧
    Memory.read s.mem (s.linear .cs s.pc (i + j)) = bs[j]

theorem State.Fetchable.tail {s : State} {i : Nat} {b : Byte} {bs : List Byte} (h : s.Fetchable i (b :: bs)) :
    s.Fetchable (i + 1) bs := fun j hj => by
  have := h (j + 1) (Nat.succ_lt_succ hj)
  rwa [List.getElem_cons_succ, ← Nat.add_assoc, Nat.add_right_comm] at this

/-- Fetchable bytes are fetched, and fetch goes on after them. -/
theorem State.Fetchable.fetchFrom {s : State} {i : Nat} {bs : List Byte} (h : s.Fetchable i bs) (n : Nat) :
    s.fetchFrom (bs.length + n) i =
      (bs ++ (s.fetchFrom n (i + bs.length)).1, (s.fetchFrom n (i + bs.length)).2) := by
  induction bs generalizing i with
  | nil => simp
  | cons b bs ih =>
    obtain ⟨htext, hfault, hread⟩ : s.pastText i = false ∧ fetchFaultAt s.fetchFaults (s.linear .cs s.pc i) = none ∧
        Memory.read s.mem (s.linear .cs s.pc i) = b := h 0 (Nat.succ_pos _)
    rw [List.length_cons, Nat.add_right_comm, State.fetchFrom, ih h.tail, htext, hfault, hread, Nat.add_right_comm i 1]
    rfl

/-- Fetchable bytes that fit an instruction are fetched first. -/
theorem State.Fetchable.fetch {s : State} {bs : List Byte} (h : s.Fetchable 0 bs) (hlen : bs.length ≤ maxLength) :
    s.fetch = (bs ++ (s.fetchFrom (maxLength - bs.length) bs.length).1,
      (s.fetchFrom (maxLength - bs.length) bs.length).2) := by
  have := h.fetchFrom (maxLength - bs.length)
  rwa [Nat.add_sub_cancel' hlen, Nat.zero_add] at this

/-- Where `Fetch` faults, nothing more is fetched. -/
theorem State.fetchFrom_of_fault {s : State} {i : Nat} {f : FetchFault} (ht : s.pastText i = false)
    (hf : fetchFaultAt s.fetchFaults (s.linear .cs s.pc i) = some f) {n : Nat} (hn : 0 < n) :
    s.fetchFrom n i = ([], .fault f) := by
  obtain ⟨n, rfl⟩ := Nat.exists_eq_succ_of_ne_zero hn.ne'
  rw [State.fetchFrom, ht, hf]
  rfl

/-! ## The step (R211) -/

/-- Settles O18: by the step's answer to a decoded instruction. -/
theorem stepRunsDecodedInstruction : Obligations.StepRunsDecodedInstruction := by
  intro s i rest h
  rw [step, h, stepDecoded]

/-- An instruction and its encoding row have one meaning. -/
theorem exec_core (i : Instr) (s : State) : exec i.core s = exec i s := by
  rw [Instr.core, exec_instr, exec_eq_run]

theorem decode_encode {m : Mode} {i : Instr} (h : i.wellFormed m = true) (rest : List Byte) :
    decode m (encode i ++ rest) = .instr i.core rest := decode_form h rest

theorem encode_length (i : Instr) : (encode i).length = i.length := i.form.bytes_length

theorem length_lt_maxLength (i : Instr) : i.length < maxLength := by
  obtain ⟨-, hle⟩ := i.form.length_bounds
  exact Nat.lt_succ_of_le hle

/-- A well-formed instruction whose bytes can be fetched at `pc` is the step's instruction. -/
theorem step_of_fetchable {s : State} {i : Instr} (hw : i.wellFormed s.mode = true) (h : s.Fetchable 0 (encode i)) :
    step s = exec i s := by
  have hfetch := h.fetch (by rw [encode_length]; exact (length_lt_maxLength i).le)
  have hdecode := decode_encode hw (s.fetchFrom (maxLength - (encode i).length) (encode i).length).1
  rw [step, hfetch, hdecode, stepDecoded, exec_core]

/-- Settles O19: the instruction's bytes are fetched and decode to its encoding row; a launch places them at `pc`, inside
its text. -/
theorem stepRunsEncodedInstruction : Obligations.StepRunsEncodedInstruction := by
  refine ⟨fun s i hw h => step_of_fetchable hw ?_, fun s base i rest hw hmem hlen hfault => step_of_fetchable hw ?_⟩
  · simpa [State.Fetchable] using h
  · intro j hj
    rw [Nat.zero_add]
    have hj' : j < (encode i ++ rest).length := by rw [List.length_append]; omega
    refine ⟨?_, hfault j (encode_length i ▸ hj), ?_⟩
    · simpa [State.pastText] using hj'
    · exact (s.withProgram_read base hmem hlen hj').trans (List.getElem_append_left hj)

/-! ## A fetch fault -/

/-- The bytes of an instruction cut short make the decoder ask for more. -/
theorem decode_take_encode {m : Mode} {i : Instr} (hw : i.wellFormed m = true) {n : Nat} (hn : n < i.length) :
    decode m ((encode i).take n) = .reject .needMore := by
  rcases decode_readsPrefix m ((encode i).take n) ((encode i).drop n) with hmore | hall
  · exact hmore
  · exfalso
    have hfull : decode m (encode i) = .instr i.core [] := by simpa using decode_encode hw []
    rw [List.take_append_drop, hfull] at hall
    cases hcut : decode m ((encode i).take n) with
    | reject r => rw [hcut] at hall; cases hall
    | instr k rest =>
      rw [hcut, Decoded.append, Decoded.instr.injEq] at hall
      obtain ⟨-, hnil⟩ := hall
      obtain ⟨-, hdrop⟩ := List.append_eq_nil_iff.mp hnil.symm
      have := List.drop_eq_nil_iff.mp hdrop
      rw [encode_length] at this
      omega

/-- Settles O20: the bytes before the fault are fetched, the decoder asks for more, and the step answers the fault. -/
theorem fetchFaultComesFirst : Obligations.FetchFaultComesFirst := by
  intro s i n f hw hn hbytes htext hfault
  have hmax : n < maxLength := hn.trans (length_lt_maxLength i)
  have hlen : ((encode i).take n).length = n := by rw [List.length_take, encode_length, Nat.min_eq_left hn.le]
  have hbefore : s.Fetchable 0 ((encode i).take n) := fun j hj => by
    rw [Nat.zero_add, List.getElem_take]
    exact hbytes j (by rw [encode_length]; omega) (hlen ▸ hj)
  have hfetch : s.fetch = ((encode i).take n, .fault f) := by
    rw [hbefore.fetch (hlen.trans_le hmax.le), hlen, State.fetchFrom_of_fault htext hfault (Nat.sub_pos_of_lt hmax),
      List.append_nil]
  rw [step, hfetch, decode_take_encode hw hn]
  rfl

end Sys2Proof.Machine
end

section
/-! SUPPORT. The statements about the checks of 60_exceptions.md R202 to R204, and about what a fault leaves of the state
(R212). -/

namespace Sys2Proof.Machine

/-! ## The #UD conditions (R202) -/

theorem State.xcr0Avx_iff (s : State) :
    s.xcr0Avx = true ↔ s.xcr0.getLsbD 1 = true ∧ s.xcr0.getLsbD 2 = true := by
  have hbits : ∀ x : BitVec 2, x = 3#2 ↔ x.getLsbD 0 = true ∧ x.getLsbD 1 = true := by decide
  simp [State.xcr0Avx, hbits]

theorem State.xcr0Avx512_iff (s : State) :
    s.xcr0Avx512 = true ↔ s.xcr0.getLsbD 5 = true ∧ s.xcr0.getLsbD 6 = true ∧ s.xcr0.getLsbD 7 = true := by
  have hbits : ∀ x : BitVec 3, x = 7#3 ↔ x.getLsbD 0 = true ∧ x.getLsbD 1 = true ∧ x.getLsbD 2 = true := by decide
  simp [State.xcr0Avx512, hbits]

theorem State.enabled_legacy_iff (s : State) :
    s.enabled .legacy = true ↔
      s.mode ≠ .mode16 ∧ s.params.hasSse2 = true ∧ s.cr0.getLsbD 2 = false ∧ s.cr4.getLsbD 9 = true := by
  simp [State.enabled, State.em, State.osfxsr, and_assoc]

theorem State.enabled_vex_iff (s : State) :
    s.enabled .vex = true ↔
      s.mode ≠ .mode16 ∧ s.params.hasAvx = true ∧ s.cr4.getLsbD 18 = true ∧ s.xcr0.getLsbD 1 = true ∧
        s.xcr0.getLsbD 2 = true := by
  simp [State.enabled, State.osxsave, s.xcr0Avx_iff, and_assoc]

theorem State.enabled_evex_iff (s : State) :
    s.enabled .evex = true ↔
      s.mode ≠ .mode16 ∧ s.params.hasAvx512f = true ∧ s.cr4.getLsbD 18 = true ∧ s.xcr0.getLsbD 1 = true ∧
        s.xcr0.getLsbD 2 = true ∧ s.xcr0.getLsbD 5 = true ∧ s.xcr0.getLsbD 6 = true ∧ s.xcr0.getLsbD 7 = true := by
  simp [State.enabled, State.osxsave, s.xcr0Avx_iff, s.xcr0Avx512_iff, and_assoc]

theorem evexFieldsOk_iff (o : EvexOps) : evexFieldsOk o = true ↔ ¬(o.evex.bc = true ∧ isMem o.t.rm = true) := by
  rw [evexFieldsOk, Bool.not_eq_true', ← Bool.not_eq_true, Bool.and_eq_true]

/-- A form that is not enabled, or whose fields are #UD, is #UD before any other check. -/
theorem State.checked_of_undefined {s : State} {f : FormKind} {ok : Bool} (h : ¬(s.enabled f = true ∧ ok = true))
    (imm : BitVec 8) (body : Result) : s.checked f ok imm body = raise .ud s := by
  rw [← Bool.and_eq_true, Bool.not_eq_true] at h
  rw [State.checked, if_pos h]

/-- Settles O26: each condition contradicts what an enabled form with admitted fields needs. -/
theorem undefinedOpcodeConditions : Obligations.UndefinedOpcodeConditions := by
  intro i s
  refine ⟨fun o imm hform h => ?_, fun o imm hform h => ?_, fun o imm hform h => ?_⟩
  · rw [exec_legacy hform]
    refine State.checked_of_undefined ?_ imm _
    rw [s.enabled_legacy_iff]
    rintro ⟨⟨hmode, hsse2, hem, hosfxsr⟩, -⟩
    simp [hmode, hsse2, hem, hosfxsr, -BitVec.getLsbD_eq_getElem] at h
  · rw [exec_vex hform]
    refine State.checked_of_undefined ?_ imm _
    rw [s.enabled_vex_iff]
    rintro ⟨⟨hmode, havx, hosxsave, h1, h2⟩, -⟩
    simp [hmode, havx, hosxsave, h1, h2, -BitVec.getLsbD_eq_getElem] at h
  · rw [exec_evex hform]
    refine State.checked_of_undefined ?_ imm _
    rw [s.enabled_evex_iff, evexFieldsOk_iff]
    rintro ⟨⟨hmode, havx512f, hosxsave, h1, h2, h5, h6, h7⟩, hfields⟩
    simp [hmode, havx512f, hosxsave, h1, h2, h5, h6, h7, hfields, -BitVec.getLsbD_eq_getElem] at h

/-! ## The device is not available (R204) -/

/-- With `CR0.TS = 1` the checks that come before pass and then stop the form, whatever it would do. -/
theorem State.checked_of_ts {s : State} {f : FormKind} {ok : Bool} {imm : BitVec 8} (he : s.enabled f = true)
    (ho : ok = true) (hi : s.immOk f imm) (ht : s.cr0.getLsbD 3 = true) (body : Result) :
    s.checked f ok imm body = raise .nm s := by
  have hi : s.refusesImm f imm = false := hi
  have ht : s.ts = true := ht
  simp [State.checked, he, ho, hi, ht]

/-- Settles O29: the checks of each form reach `CR0.TS`. -/
theorem taskSwitchedRaisesNM : Obligations.TaskSwitchedRaisesNM := by
  intro i s hts
  refine ⟨fun o imm hform he hi => ?_, fun o imm hform he hi => ?_, fun o imm hform he ho hi => ?_⟩
  · rw [exec_legacy hform]
    exact State.checked_of_ts he rfl hi hts _
  · rw [exec_vex hform]
    exact State.checked_of_ts he rfl hi hts _
  · rw [exec_evex hform]
    exact State.checked_of_ts he ho hi hts _

/-! ## A fault of the memory read (R211 step 4) -/

theorem runLegacy_of_fault {s : State} {o : LegacyOps} {imm : BitVec 8} {e : Exception} (hr : s.ready .legacy)
    (hi : s.immOk .legacy imm) (hb : legacyB s o (Form.legacy o imm).length = .fault e) :
    runLegacy o imm s = raise e s := by
  obtain ⟨hen, hts⟩ := hr
  rw [runLegacy, State.checked_of_ok hen rfl hi hts, hb]

theorem runVex_of_fault {s : State} {o : VexOps} {imm : BitVec 8} {e : Exception} (hr : s.ready .vex)
    (hi : s.immOk .vex imm) (hb : vexB s o (Form.vex o imm).length = .fault e) : runVex o imm s = raise e s := by
  obtain ⟨hen, hts⟩ := hr
  rw [runVex, State.checked_of_ok hen rfl hi hts, hb]

theorem runEvex_of_fault {s : State} {o : EvexOps} {imm : BitVec 8} {e : Exception} (hr : s.ready .evex)
    (hi : s.immOk .evex imm) (hf : evexFieldsOk o = true)
    (hm : o.evex.aaa = 0#3 ∨ (s.kreg o.evex.aaa).testBit 0 = true)
    (hb : evexB s o (Form.evex o imm).length = .fault e) : runEvex o imm s = raise e s := by
  obtain ⟨hen, hts⟩ := hr
  rw [runEvex, State.checked_of_ok hen hf hi hts, if_pos ((evexMaskBit_iff s o).mpr hm), hb]

/-- Settles O36: the checks pass, and each form answers the fault of its operand B. -/
theorem memoryFaultIsRaised : Obligations.MemoryFaultIsRaised := by
  intro i s e
  refine ⟨fun o imm hform hr hi hb => ?_, fun o imm hform hr hi hb => ?_, fun o imm hform hr hi hf hm hb => ?_⟩ <;>
    rw [Instr.length, hform] at hb
  · rw [exec_legacy hform, runLegacy_of_fault hr hi hb]
  · rw [exec_vex hform, runVex_of_fault hr hi hb]
  · rw [exec_evex hform, runEvex_of_fault hr hi hf hm hb]

/-! ## What a fault leaves of the state (R212) -/

theorem stepReject_fault {s t : State} {stop : FetchStop} {r : Reject} {e : Exception}
    (h : stepReject s stop r = .fault (.exception e t)) : t = s := by
  cases r with
  | needMore => cases stop <;> cases h <;> rfl
  | undefinedOpcode => cases h; rfl
  | notInScope | prefixCombination | zeroingMarker | highRegister => cases h

/-- A step's fault is its instruction's, or it leaves the state unchanged. -/
theorem step_fault {s t : State} {e : Exception} (h : step s = .fault (.exception e t)) :
    t = s ∨ ∃ i, exec i s = .fault (.exception e t) := by
  unfold step stepDecoded at h
  split at h
  · next i _ _ => exact .inr ⟨i, h⟩
  · exact .inl (stepReject_fault h)

/-- A comparison sets one flag at most: no operand is a denormal beside a NaN (40_predicates.md R136). -/
theorem flagged_one (a b : Word) (p : BitVec 5) (mx : BitVec 32) :
    flagged a b p mx = mx ∨ flagged a b p mx = mx ||| 1#32 ∨ flagged a b p mx = mx ||| 2#32 := by
  unfold flagged flagInvalid
  cases hd : denorm a b mx
  · cases invalid a b p <;> simp [setIE]
  · simp [invalid_of_denorm hd, setDE]

/-- Settles O39: a fault is raised with the state unchanged, or by a comparison, which sets one flag at most. -/
theorem faultsArePrecise : Obligations.FaultsArePrecise := by
  intro s t e h
  have hfault : t = s ∨ ∃ i, exec i s = .fault (.exception e t) := h.elim step_fault .inr
  have hcases : t = s ∨
      ∃ a b p, t = s.setMxcsr (flagged a b p s.mxcsr) ∧ e = if s.osxmmexcpt then .xm else .ud := by
    rcases hfault with ht | ⟨i, hi⟩
    · exact .inl ht
    · exact Form.run_fault (exec_eq_run i s ▸ hi)
  rcases hcases with rfl | ⟨a, b, p, rfl, he⟩
  · exact ⟨rfl, .inl rfl⟩
  · exact ⟨rfl, (flagged_one a b p s.mxcsr).imp_right fun hflag => ⟨hflag, he⟩⟩

/-! ## Exceptions of a read (R206 to R209) -/

theorem extractLsb'_low_three_eq_zero_iff (ea : BitVec 64) : ea.extractLsb' 0 3 = 0#3 ↔ ea.toNat % 8 = 0 := by
  rw [← BitVec.toNat_inj]
  simp

theorem State.misaligned_iff (s : State) (ea : BitVec 64) :
    s.misaligned ea = true ↔
      s.cr0.getLsbD 18 = true ∧ s.rflags.getLsbD 18 = true ∧ s.cpl = 3 ∧ ea.toNat % 8 ≠ 0 := by
  simp [State.misaligned, State.am, State.acFlag, extractLsb'_low_three_eq_zero_iff, and_assoc]

theorem State.alignChecked_eq (s : State) (ea : BitVec 64) (b : Word) :
    s.alignChecked ea b =
      if s.cr0.getLsbD 18 = true ∧ s.rflags.getLsbD 18 = true ∧ s.cpl = 3 ∧ ea.toNat % 8 ≠ 0 then .fault .ac
      else .value b :=
  if_congr (s.misaligned_iff ea) rfl rfl

/-- Settles O54: each of these answers gives a value to the alignment check. -/
theorem alignmentCheckOnly : Obligations.AlignmentCheckOnly := by
  intro s g ea checked
  refine ⟨fun h => ?_, fun more h => ?_, fun b more h => ?_⟩ <;> rw [State.memRead, h] <;>
    exact s.alignChecked_eq ea _

/-- Settles O55: a read answers the fault that the oracle scripts. -/
theorem oracleFaultsOfARead : Obligations.OracleFaultsOfARead := by
  intro s g ea more
  refine ⟨fun h => ?_, fun c a h => ?_⟩ <;> rw [State.memRead, h]

/-- Settles O56: by the definitions of the vector and the error code. -/
theorem exceptionVectorsAndCodes : Obligations.ExceptionVectorsAndCodes :=
  ⟨rfl, rfl, rfl, rfl, fun _ _ => rfl, rfl, rfl, rfl, rfl, rfl, rfl, fun _ _ => rfl, rfl, rfl⟩

end Sys2Proof.Machine
end

section
/-! SUPPORT. The statements about launch and the program text of 70_reset_and_hazards.md: the premises that enable a
form (R243), and the bounds that fetch keeps a run in (R240, R247). -/

namespace Sys2Proof.Machine

/-! ## The launch premises (R243) -/

/-- Settles O27: an enabled form is one whose premises all hold. -/
theorem enabledUnderLaunchPremises : Obligations.EnabledUnderLaunchPremises :=
  ⟨evexFieldsOk_iff, fun s hmode =>
    ⟨fun hsse2 hem hosfxsr => s.enabled_legacy_iff.mpr ⟨hmode, hsse2, hem, hosfxsr⟩,
      fun havx hosxsave h1 h2 => s.enabled_vex_iff.mpr ⟨hmode, havx, hosxsave, h1, h2⟩,
      fun havx512f hosxsave h1 h2 h5 h6 h7 =>
        s.enabled_evex_iff.mpr ⟨hmode, havx512f, hosxsave, h1, h2, h5, h6, h7⟩⟩⟩

/-! ## Fetch stays within the program text (R247) -/

/-- No byte that is fetched lies past the program text. -/
theorem State.pastText_of_lt_fetchFrom (s : State) {n i j : Nat} (hj : j < (s.fetchFrom n i).1.length) :
    s.pastText (i + j) = false := by
  induction n generalizing i j with
  | zero => simp [State.fetchFrom] at hj
  | succ n ih =>
    rw [State.fetchFrom] at hj
    split at hj
    · simp at hj
    · next htext =>
      split at hj
      · simp at hj
      · match j with
        | 0 => simpa using htext
        | j + 1 =>
          rw [← Nat.add_assoc, Nat.add_right_comm]
          exact ih (Nat.lt_of_succ_lt_succ hj)

theorem State.pastText_iff {s : State} {p : ProgramText} (h : s.text = some p) (i : Nat) :
    s.pastText i = true ↔ p.base.toNat + p.len ≤ s.pc.toNat + i := by
  simp [State.pastText, h]

/-- An instruction whose bytes were fetched ends at or before the end of the program text: its last byte was fetched. -/
theorem end_le_of_decoded {s : State} {p : ProgramText} (htext : s.text = some p) {i : Instr} {rest : List Byte}
    (h : decode s.mode s.fetch.1 = .instr i rest) : s.pc.toNat + i.length ≤ p.base.toNat + p.len := by
  obtain ⟨-, -, hlen⟩ := decodedIsWellFormed _ _ _ _ h
  have hpos : 5 ≤ i.length := i.form.length_bounds.1
  have hlast : s.pastText (0 + (i.length - 1)) = false :=
    s.pastText_of_lt_fetchFrom (n := maxLength) (i := 0) (by rw [State.fetch] at hlen; omega)
  rw [← Bool.not_eq_true, s.pastText_iff htext] at hlast
  omega

/-! ## The end of the program text (R247, log 13) -/

/-- At the end of the text no byte can be fetched. -/
theorem step_of_atEnd {s : State} (h : s.atEnd) : step s = .refused .ranOffProgram := by
  obtain ⟨p, htext, hpc⟩ := h
  have hpast : s.pastText 0 = true := (s.pastText_iff htext 0).mpr hpc.ge
  have hfetch : s.fetch = ([], .textEnd) := by
    rw [State.fetch, maxLength, State.fetchFrom, if_pos hpast]
  rw [step, hfetch]
  rfl

/-! ## A text below the top of the offsets (log 13) -/

/-- The end of the text is an offset that the mode's `pc` can hold. -/
structure ProgramText.Fits (p : ProgramText) (m : Mode) : Prop where
  lt : p.base.toNat + p.len < 2 ^ 64
  trunc : Mode.truncPc m (BitVec.ofNat 64 (p.base.toNat + p.len)) = BitVec.ofNat 64 (p.base.toNat + p.len)

/-- The count of offsets that `pc` can hold in the mode (10_state.md R29). -/
def Mode.offsets : Mode → Nat
  | .mode64 => 2 ^ 64
  | .mode32 => 2 ^ 32
  | .mode16 => 2 ^ 16

theorem Mode.truncPc_toNat (m : Mode) (a : BitVec 64) : (Mode.truncPc m a).toNat = a.toNat % Mode.offsets m := by
  cases m with
  | mode64 => exact (Nat.mod_eq_of_lt a.isLt).symm
  | mode32 | mode16 => simp only [Mode.truncPc, Mode.offsets, BitVec.toNat_setWidth]; omega

theorem Mode.lt_offsets_of_truncPc {m : Mode} {n : Nat} (hn : n < 2 ^ 64)
    (h : Mode.truncPc m (BitVec.ofNat 64 n) = BitVec.ofNat 64 n) : n < Mode.offsets m := by
  have h := congrArg BitVec.toNat h
  rw [Mode.truncPc_toNat, BitVec.toNat_ofNat, Nat.mod_eq_of_lt hn] at h
  rw [← h]
  exact Nat.mod_lt _ (by cases m <;> decide)

/-- A `pc` that moves on within a text that fits is not truncated. -/
theorem ProgramText.Fits.advance_toNat {p : ProgramText} {m : Mode} (h : p.Fits m) {a : BitVec 64} {k : Nat}
    (hk : a.toNat + k ≤ p.base.toNat + p.len) :
    (Mode.truncPc m (a + BitVec.ofNat 64 k)).toNat = a.toNat + k := by
  have hoffset : a.toNat + k < Mode.offsets m := hk.trans_lt (Mode.lt_offsets_of_truncPc h.lt h.trunc)
  rw [Mode.truncPc_toNat, BitVec.toNat_add, BitVec.toNat_ofNat, Nat.add_mod_mod,
    Nat.mod_eq_of_lt (hk.trans_lt h.lt), Nat.mod_eq_of_lt hoffset]

/-- In a text that fits, a step moves `pc` past its instruction, which ends within the text. -/
theorem ProgramText.Fits.step_pc {p : ProgramText} {s t : State} (h : p.Fits s.mode) (htext : s.text = some p)
    (hstep : step s = .next t) :
    ∃ i rest, decode s.mode s.fetch.1 = .instr i rest ∧ s.pc.toNat + i.length ≤ p.base.toNat + p.len ∧
      t.pc.toNat = s.pc.toNat + i.length := by
  obtain ⟨i, rest, hdecode, hexec⟩ := step_next hstep
  obtain ⟨-, -, -, -, hpc, -⟩ := everyInstructionFrame i s t hexec
  have hend := end_le_of_decoded htext hdecode
  exact ⟨i, rest, hdecode, hend, by rw [hpc, h.advance_toNat hend]⟩

/-- Settles O21: a step runs an instruction that was fetched within the text, and moves `pc` by its length. -/
theorem stepStaysInProgramText : Obligations.StepStaysInProgramText := by
  refine ⟨fun s base bs hmem hlen => ⟨rfl, rfl, fun j hj => s.withProgram_read base hmem hlen hj,
    fun a ha => s.withProgram_read_outside base bs ha, rfl⟩, fun s t p htext hstep => ?_,
    fun s t p htext hbase hlt htrunc hstep => ?_, fun _ => step_of_atEnd, fun s t h => ?_⟩
  · obtain ⟨i, rest, hdecode, -⟩ := step_next hstep
    exact ⟨i, rest, hdecode, end_le_of_decoded htext hdecode⟩
  · obtain ⟨i, rest, hdecode, hend, hpc⟩ := ProgramText.Fits.step_pc ⟨hlt, htrunc⟩ htext hstep
    obtain ⟨hrest, -⟩ := step_frame hstep
    exact ⟨hrest.text.trans htext, by omega, by omega, i, rest, hdecode, hpc⟩
  · obtain ⟨-, n, -, hend⟩ := h
    exact step_of_atEnd hend

/-! ## The length of a run (R95, R247) -/

/-- Each step of a run takes five bytes of text at least, and none takes the run past the end. -/
theorem ProgramText.Fits.runs_pc {p : ProgramText} {n : Nat} {s t : State} (h : p.Fits s.mode) (htext : s.text = some p)
    (hpc : s.pc.toNat ≤ p.base.toNat + p.len) (hrun : Runs n s t) :
    s.pc.toNat + 5 * n ≤ t.pc.toNat ∧ t.pc.toNat ≤ p.base.toNat + p.len := by
  induction n generalizing s with
  | zero => cases hrun; exact ⟨le_rfl, hpc⟩
  | succ n ih =>
    obtain ⟨u, hstep, hrun⟩ := hrun
    obtain ⟨i, _, _, hend, hu⟩ := h.step_pc htext hstep
    obtain ⟨hrest, -⟩ := step_frame hstep
    obtain ⟨hlow, hhigh⟩ := ih (hrest.mode ▸ h) (hrest.text.trans htext) (hu ▸ hend) hrun
    have hlen : 5 ≤ i.length := i.form.length_bounds.1
    exact ⟨by omega, hhigh⟩

/-- Settles O22: the run starts at `base` and moves on five bytes a step, up to the end of the text. -/
theorem runLengthIsBounded : Obligations.RunLengthIsBounded := by
  intro n s t p htext hpc htrunc hlt hrun
  obtain ⟨hlow, hhigh⟩ := ProgramText.Fits.runs_pc ⟨hlt, htrunc⟩ htext (by rw [hpc]; omega) hrun
  rw [hpc] at hlow ⊢
  exact ⟨by omega, hlow⟩

end Sys2Proof.Machine
end
